-- ==== Sys2Proof/Word.lean ====
section
/-! DEFINITION. The bit-vector widths of spec/00_scope.md R9: the block's values are unsigned and bit 0 is the least
significant bit. -/

namespace Sys2Proof

/-- One port byte (20_memory.md R60). -/
abbrev Byte := BitVec 8

/-- `Ri`, `Ro`, `RepeaterInfo`, `PendingEvents` (30_encoding.md R90, R100, R103). -/
abbrev Half := BitVec 16

/-- A `V'` word, a B register, the version (30_encoding.md R101, R104, R109). -/
abbrev Word := BitVec 32

/-- A KSV, `An`, `Mi`, `Mo`, a stream map (30_encoding.md R99, R102, R106). -/
abbrev Wide := BitVec 64

/-- A host command word (30_encoding.md R96). -/
abbrev CommandWord := BitVec 72

/-- "All ones" of 30_encoding.md R106: every logical video stream. -/
def allStreams : Wide := 0xFFFFFFFFFFFFFFFF#64

end Sys2Proof
end

