-- ==== Sys2Proof/Config.lean ====
section
/-! DEFINITION. What is fixed for one instance (00_scope.md R8) and the free values: opaque constants, whose value no
proof can see. -/

namespace Sys2Proof

/-- `P_DIRECTION` (00_scope.md R3). -/
inductive Direction where
  | tx
  | rx
  deriving DecidableEq, Repr

/-- `P_PROTOCOL` (00_scope.md R8). -/
inductive Protocol where
  | hdmi
  | dp
  deriving DecidableEq, Repr

/-- `P_PORTMAP` (20_memory.md R61, R62): the 8-bit offset of each port register. -/
structure PortMap where
  bksv : Byte
  ro : Byte
  aksv : Byte
  ainfo : Byte
  an : Byte
  vh0 : Byte
  vh1 : Byte
  vh2 : Byte
  vh3 : Byte
  vh4 : Byte
  bcaps : Byte
  bstatus : Byte
  ksvFifo : Byte
  deriving DecidableEq, Repr

/-- The source's literals (00_scope.md R6, R7), which 93 I13 makes parameters: "each literal is a named constant, and its
stated value is the default". The stated values are `statedLiterals` (entry 40). -/
structure Literals where
  /-- `T_VALIDATE_RX`, in ms. -/
  tValidateRx : Nat
  /-- `T_WAIT_READY`, in ms. -/
  tWaitReady : Nat
  /-- `T_SETTLE`, in ms. -/
  tSettle : Nat
  /-- `N_RETRY`. -/
  nRetry : Nat
  /-- The low bits of a KSV that count (R6's "40 bits", 30_encoding.md R99). -/
  ksvBits : Nat
  /-- `KSV_ONES`. -/
  ksvOnes : Nat
  /-- `AN_FALLBACK`. -/
  anFallback : Wide
  /-- `KSV_BYTES`. -/
  ksvBytes : Nat
  /-- `AN_BYTES`. -/
  anBytes : Nat
  /-- `RIRO_BYTES`. -/
  riRoBytes : Nat
  /-- `VPRIME_WORDS`. -/
  vPrimeWords : Nat
  /-- The bytes of one `V'` word ("5 (of 4 bytes)"). -/
  vPrimeWordBytes : Nat
  /-- `REPINFO_BYTES`. -/
  repInfoBytes : Nat
  /-- `MO_BYTES`. -/
  moBytes : Nat
  /-- `POLL_CADENCE_MAX`, in ms: the host's duty, which the block does not use (70_reset_and_hazards.md R355). -/
  pollCadenceMax : Nat
  deriving DecidableEq, Repr

/-- Which Platform services the host supplied (20_memory.md R69, R70). -/
structure Hooks where
  isKsvRevoked : Bool
  timerStart : Bool
  timerStop : Bool
  timerBusyDelay : Bool
  deriving DecidableEq, Repr

/-- The implementation parameters of 00_scope.md R8, with the hooks of 20_memory.md R70 and the literals of R7. "Fixed for
the life of an instance and no command changes them" (10_state.md R34). -/
structure Params where
  direction : Direction
  txPresent : Bool
  rxPresent : Bool
  protocol : Protocol
  portMap : PortMap
  ksvChunk : Nat
  phyUpAtReset : Bool
  wfrPollOnPoll : Bool
  version : Word
  statWidth : Nat
  hooks : Hooks
  literals : Literals
  deriving DecidableEq, Repr

namespace Config

/-- `P_VERSION`, an OPEN parameter (00_scope.md R8, 93 I22). Free: entry 3. -/
opaque version : Word

/-- `P_KSV_CHUNK` less one, an OPEN parameter with values 1 to 255 (00_scope.md R8, 93 I23). Free: entry 3. -/
opaque ksvChunkLessOne : Fin 255

/-- `P_KSV_CHUNK` of the reset instance: some value from 1 to 255. -/
def ksvChunk : Nat := ksvChunkLessOne.val + 1

/-- A Boolean answer of a collaborator that `State.answers` does not list (93 I16 "any value"). Entry 4. -/
opaque freeFlag : Nat → Bool

/-- A 16-bit answer that `State.answers` does not list (93 I16). Entry 4. -/
opaque freeHalf : Nat → Half

/-- A 64-bit answer that `State.answers` does not list (93 I16). Entry 4. -/
opaque freeWide : Nat → Wide

/-- By how much an unlisted transfer falls short of the requested count: 0 is a success (20_memory.md R64, R65,
"constrained only by k <= n"). Entry 4. -/
opaque freeShortfall : Nat → Nat

/-- Byte `i` of a read whose answer does not list it (20_memory.md R64). Entry 4. -/
opaque freeByte : Nat → Nat → Byte

/-- An unlisted `Port.GetRepeaterInfo` answer: none is "not ready" (20_memory.md R66). Entry 4. -/
opaque freeRepeaterInfo : Nat → Option Half

/-- How many more times an unlisted wait for the cipher's RNG answers false before it answers true, none when it never
does (93 I12). Entry 20. -/
opaque freeWait : Nat → Option Nat

/-- The text `INFO` makes of the reported register values (40_commands.md R136, 93 I24 "any value"). Entry 23. -/
opaque infoText : Nat → List Nat → String

end Config

end Sys2Proof
end

