-- ==== Sys2Proof/Syntax.lean ====
section
/-! DEFINITION. The instructions: one constructor for each row of spec/opcode_table.json. -/

namespace Sys2Proof

/-- The 17 host commands (30_encoding.md R97), the 9 Tx events (R93) and the 8 Rx events (R94). -/
inductive Instr where
  /-- `CFGINIT`, 40_commands.md R121. -/
  | cfginit
  /-- `POLL`, 40_commands.md R122. -/
  | poll
  /-- `RESET`, 40_commands.md R123. -/
  | reset
  /-- `ENABLE`, 40_commands.md R124. -/
  | enable
  /-- `DISABLE`, 40_commands.md R125. -/
  | disable
  /-- `SETPHY u`, 40_commands.md R126: `u` true is up. -/
  | setphy (u : Bool)
  /-- `SETLANES n`, 40_commands.md R127. -/
  | setlanes (n : Byte)
  /-- `AUTH`, 40_commands.md R128. -/
  | auth
  /-- `ISINPROG`, 40_commands.md R129. -/
  | isinprog
  /-- `ISAUTH`, 40_commands.md R130. -/
  | isauth
  /-- `GETENC`, 40_commands.md R131. -/
  | getenc
  /-- `ENENC map`, 40_commands.md R132. -/
  | enenc (map : Wide)
  /-- `DISENC map`, 40_commands.md R133. -/
  | disenc (map : Wide)
  /-- `SETKEYSEL n`, 40_commands.md R134. -/
  | setkeysel (n : Byte)
  /-- `TIMEOUT`, 40_commands.md R135. -/
  | timeout
  /-- `INFO`, 40_commands.md R136. -/
  | info
  /-- `GETVER`, 40_commands.md R137. -/
  | getver
  /-- Tx event 1, 42_tx_events.md R171. -/
  | txAuthenticate
  /-- Tx event 2, 42_tx_events.md R172. -/
  | txCheck
  /-- Tx event 3, 42_tx_events.md R173. -/
  | txDisable
  /-- Tx event 4, 42_tx_events.md R174. -/
  | txEnable
  /-- Tx event 5, 42_tx_events.md R175. -/
  | txLinkdown
  /-- Tx event 6, 42_tx_events.md R176. -/
  | txPhydown
  /-- Tx event 7, 42_tx_events.md R177. -/
  | txPhyup
  /-- Tx event 8, 42_tx_events.md R178. -/
  | txPoll
  /-- Tx event 9, 42_tx_events.md R179. -/
  | txTimeout
  /-- Rx event 1, 44_rx_events.md R251. -/
  | rxAuthenticate
  /-- Rx event 2, 44_rx_events.md R252. -/
  | rxCheck
  /-- Rx event 3, 44_rx_events.md R253. -/
  | rxDisable
  /-- Rx event 4, 44_rx_events.md R254. -/
  | rxEnable
  /-- Rx event 5, 44_rx_events.md R255. -/
  | rxPhydown
  /-- Rx event 6, 44_rx_events.md R256. -/
  | rxPhyup
  /-- Rx event 7, 44_rx_events.md R257. -/
  | rxPoll
  /-- Rx event 8, 44_rx_events.md R258. -/
  | rxUpdateRi
  deriving DecidableEq, Repr

end Sys2Proof
end

