-- ==== Sys2Proof/WellFormed.lean ====
section
/-! DEFINITION. When an instruction and an instance's parameters make sense. Every operand of a command has exactly the
width of its field (30_encoding.md R96), so a command is always well formed; an event belongs to one direction. -/

namespace Sys2Proof

/-- The direction an event row belongs to (00_scope.md R3); none for a host command. -/
def Instr.eventDirection : Instr → Option Direction
  | .cfginit | .poll | .reset | .enable | .disable | .setphy _ | .setlanes _ | .auth | .isinprog | .isauth
  | .getenc | .enenc _ | .disenc _ | .setkeysel _ | .timeout | .info | .getver => none
  | .txAuthenticate | .txCheck | .txDisable | .txEnable | .txLinkdown | .txPhydown | .txPhyup | .txPoll
  | .txTimeout => some .tx
  | .rxAuthenticate | .rxCheck | .rxDisable | .rxEnable | .rxPhydown | .rxPhyup | .rxPoll | .rxUpdateRi => some .rx

/-- An instruction is well formed for an instance of direction `d` when it is a command or an event of `d`:
"every rule of 42_tx_events.md … applies only when P_DIRECTION = Tx; every rule of 44_rx_events.md … Rx" (R3). -/
def Instr.wf (d : Direction) (i : Instr) : Bool :=
  match i.eventDirection with
  | none => true
  | some e => e == d

/-- No transfer of a register of 20_memory.md R61 runs past offset 0xFF. R71 says so of the default map; neither 00_scope.md
R8 nor R62 puts a range on another `P_PORTMAP`, so asking it of every map is DESIGN CHOICE: safe, entry 41. -/
def PortMap.inRange (m : PortMap) (l : Literals) : Bool :=
  m.bksv.toNat + l.ksvBytes ≤ 256 && m.ro.toNat + l.riRoBytes ≤ 256 && m.aksv.toNat + l.ksvBytes ≤ 256 &&
  m.an.toNat + l.anBytes ≤ 256 && m.vh0.toNat + l.vPrimeWordBytes ≤ 256 && m.vh1.toNat + l.vPrimeWordBytes ≤ 256 &&
  m.vh2.toNat + l.vPrimeWordBytes ≤ 256 && m.vh3.toNat + l.vPrimeWordBytes ≤ 256 &&
  m.vh4.toNat + l.vPrimeWordBytes ≤ 256

/-- Literals an instance can have: a fallback for `An` that is not the zero it replaces (43_tx_procedures.md R213, R224),
and no more `V'` words than there are `VH` registers (20_memory.md R61). Entry 40. -/
def Literals.wf (l : Literals) : Bool := l.anFallback != 0#64 && l.vPrimeWords ≤ 5

/-- When an instance's parameters make sense: a KSV chunk of 1 to 255 bytes, the range of 00_scope.md R8, with literals
(entry 40) and a port map (entry 41) an instance can have. A counter of at least one bit is DESIGN CHOICE: R8 gives
`P_STAT_WIDTH` no lower bound (safe, entry 41). No step reads this. -/
def Params.wf (p : Params) : Bool :=
  1 ≤ p.ksvChunk && p.ksvChunk ≤ 255 && 1 ≤ p.statWidth && p.literals.wf && p.portMap.inRange p.literals

end Sys2Proof
end

