-- ==== Sys2Proof/Decode.lean ====
section
/-! DEFINITION. From the bits of 30_encoding.md to instructions and back. A host command is a 72-bit word (R96); an
event word is 16 bits, one bit an event (R93 to R95). -/

namespace Sys2Proof

/-- What the sequencer takes an instruction from: a host command word, or a word of events that a drain has taken out
of `PendingEvents` and dispatches in ascending order (41_event_queue.md R153). -/
inductive FetchWord where
  | command (w : CommandWord)
  | events (w : Half)
  deriving DecidableEq, Repr

/-- Why a word names no instruction. -/
inductive DecodeError where
  /-- Opcode 0x00 or 0x12 to 0xFF (30_encoding.md R98). -/
  | illegalOpcode (op : Byte)
  /-- A must-be-zero operand bit is set (30_encoding.md R98). -/
  | operandBitsSet (op : Byte)
  /-- A reserved event bit is set (30_encoding.md R95). -/
  | reservedEventBit
  /-- An event word with no bit set: nothing to dispatch. -/
  | noEvent
  deriving DecidableEq, Repr

/-- Bits 7:0 of a command word (30_encoding.md R96). -/
def opcodeField (w : CommandWord) : Byte := w.extractLsb' 0 8

/-- Bits 71:8 of a command word (30_encoding.md R96). -/
def operandField (w : CommandWord) : Wide := w.extractLsb' 8 64

/-- Format `C0`: bits 71:8 must be zero. -/
def formatC0 (op : Byte) (x : Wide) (i : Instr) : Except DecodeError Instr :=
  if x = 0#64 then .ok i else .error (.operandBitsSet op)

/-- Format `CU`: `u` in bit 8, bits 71:9 must be zero. -/
def formatCU (op : Byte) (x : Wide) (i : Bool → Instr) : Except DecodeError Instr :=
  if x.extractLsb' 1 63 = 0#63 then .ok (i (x.getLsbD 0)) else .error (.operandBitsSet op)

/-- Format `CN`: `n` in bits 15:8, bits 71:16 must be zero. -/
def formatCN (op : Byte) (x : Wide) (i : Byte → Instr) : Except DecodeError Instr :=
  if x.extractLsb' 8 56 = 0#56 then .ok (i (x.extractLsb' 0 8)) else .error (.operandBitsSet op)

/-- A host command word (30_encoding.md R96 to R98). -/
def decodeCommand (w : CommandWord) : Except DecodeError Instr :=
  let op := opcodeField w
  let x := operandField w
  match op.toNat with
  | 0x01 => formatC0 op x .cfginit
  | 0x02 => formatC0 op x .poll
  | 0x03 => formatC0 op x .reset
  | 0x04 => formatC0 op x .enable
  | 0x05 => formatC0 op x .disable
  | 0x06 => formatCU op x .setphy
  | 0x07 => formatCN op x .setlanes
  | 0x08 => formatC0 op x .auth
  | 0x09 => formatC0 op x .isinprog
  | 0x0A => formatC0 op x .isauth
  | 0x0B => formatC0 op x .getenc
  | 0x0C => .ok (.enenc x)
  | 0x0D => .ok (.disenc x)
  | 0x0E => formatCN op x .setkeysel
  | 0x0F => formatC0 op x .timeout
  | 0x10 => formatC0 op x .info
  | 0x11 => formatC0 op x .getver
  | _ => .error (.illegalOpcode op)

/-- The event numbers of a direction, ascending, with their rows (30_encoding.md R93, R94). -/
def eventTable : Direction → List (Nat × Instr)
  | .tx => [(1, .txAuthenticate), (2, .txCheck), (3, .txDisable), (4, .txEnable), (5, .txLinkdown),
            (6, .txPhydown), (7, .txPhyup), (8, .txPoll), (9, .txTimeout)]
  | .rx => [(1, .rxAuthenticate), (2, .rxCheck), (3, .rxDisable), (4, .rxEnable), (5, .rxPhydown),
            (6, .rxPhyup), (7, .rxPoll), (8, .rxUpdateRi)]

/-- The event bits that are never set: bit 0 and bits 10 to 15 (Tx), bit 0 and bits 9 to 15 (Rx) (30_encoding.md R95). -/
def reservedEventMask : Direction → Half
  | .tx => 0xFC01#16
  | .rx => 0xFE01#16

/-- The event an event word dispatches next: its lowest set bit (41_event_queue.md R153), with its number. -/
def nextEvent (d : Direction) (w : Half) : Option (Nat × Instr) :=
  (eventTable d).find? fun row => w.getLsbD row.1

/-- An event word (30_encoding.md R93 to R95). -/
def decodeEvent (d : Direction) (w : Half) : Except DecodeError Instr :=
  if w &&& reservedEventMask d ≠ 0#16 then .error .reservedEventBit
  else
    match nextEvent d w with
    | some row => .ok row.2
    | none => .error .noEvent

/-- The decoder. Which event a bit names depends on the instance's direction. -/
def decode (d : Direction) : FetchWord → Except DecodeError Instr
  | .command w => decodeCommand w
  | .events w => decodeEvent d w

/-- What is left of a word once its instruction is taken: the later events of an event word, nothing of a command. -/
def FetchWord.remainder (d : Direction) : FetchWord → List FetchWord
  | .command _ => []
  | .events w =>
    match nextEvent d w with
    | some row =>
      let left := w &&& ~~~(1#16 <<< row.1)
      if left = 0#16 then [] else [.events left]
    | none => []

/-- The command word with this opcode and operand field (30_encoding.md R96). -/
def commandWord (op : Byte) (x : Wide) : CommandWord := x ++ op

/-- Event number `n` is bit `n` (30_encoding.md R93, R94). -/
def eventWord (n : Nat) : FetchWord := .events (1#16 <<< n)

/-- The encoder, written from 30_encoding.md R93, R94, R96, R97. -/
def encode : Instr → FetchWord
  | .cfginit => .command (commandWord 0x01#8 0#64)
  | .poll => .command (commandWord 0x02#8 0#64)
  | .reset => .command (commandWord 0x03#8 0#64)
  | .enable => .command (commandWord 0x04#8 0#64)
  | .disable => .command (commandWord 0x05#8 0#64)
  | .setphy u => .command (commandWord 0x06#8 (if u then 1#64 else 0#64))
  | .setlanes n => .command (commandWord 0x07#8 (n.setWidth 64))
  | .auth => .command (commandWord 0x08#8 0#64)
  | .isinprog => .command (commandWord 0x09#8 0#64)
  | .isauth => .command (commandWord 0x0A#8 0#64)
  | .getenc => .command (commandWord 0x0B#8 0#64)
  | .enenc map => .command (commandWord 0x0C#8 map)
  | .disenc map => .command (commandWord 0x0D#8 map)
  | .setkeysel n => .command (commandWord 0x0E#8 (n.setWidth 64))
  | .timeout => .command (commandWord 0x0F#8 0#64)
  | .info => .command (commandWord 0x10#8 0#64)
  | .getver => .command (commandWord 0x11#8 0#64)
  | .txAuthenticate => eventWord 1
  | .txCheck => eventWord 2
  | .txDisable => eventWord 3
  | .txEnable => eventWord 4
  | .txLinkdown => eventWord 5
  | .txPhydown => eventWord 6
  | .txPhyup => eventWord 7
  | .txPoll => eventWord 8
  | .txTimeout => eventWord 9
  | .rxAuthenticate => eventWord 1
  | .rxCheck => eventWord 2
  | .rxDisable => eventWord 3
  | .rxEnable => eventWord 4
  | .rxPhydown => eventWord 5
  | .rxPhyup => eventWord 6
  | .rxPoll => eventWord 7
  | .rxUpdateRi => eventWord 8

/-- The word that an instruction of `nbits` table bits with value `w` stands for. A row of more than 16 bits is a
command word and a row of 9 to 16 bits an event word. At most 8 bits are either an event word whose high byte is zero,
when exactly one of the event bits 1 to 7 is set, or a command word of which the table fixes the opcode only
(`ENENC`, `DISENC`); every bit above `nbits` is zero (entry 7). -/
def tableFetchWord (nbits w : Nat) : FetchWord :=
  if 16 < nbits then .command (BitVec.ofNat 72 w)
  else if 8 < nbits then .events (BitVec.ofNat 16 w)
  else if w ∈ [0x02, 0x04, 0x08, 0x10, 0x20, 0x40, 0x80] then .events (BitVec.ofNat 16 w)
  else .command (BitVec.ofNat 72 w)

/-- The instruction the decoder reads from a row of the opcode table. The table's Tx and Rx events share their words;
this reads an event word for a Tx, the direction of `State.reset` (entry 7). -/
def decodeTableWord (nbits w : Nat) : Option Instr :=
  match decode .tx (tableFetchWord nbits w) with
  | .ok i => some i
  | .error _ => none

end Sys2Proof
end

