-- ==== Sys2Proof/Machine/Constants.lean ====
section
/-! DEFINITION. The stated values of 00_scope.md R7's constants, the default port maps of 20_memory.md R62 and the
parameters of the reset instance. -/

namespace Sys2Proof.Machine

/-- The values the source states for its literals (00_scope.md R7): the defaults of 93 I13. -/
def statedLiterals : Literals :=
  { tValidateRx := 100, tWaitReady := 5000, tSettle := 5, nRetry := 3, ksvBits := 40, ksvOnes := 20,
    anFallback := 0x0351F7175406A74D#64, ksvBytes := 5, anBytes := 8, riRoBytes := 2, vPrimeWords := 5,
    vPrimeWordBytes := 4, repInfoBytes := 2, moBytes := 8, pollCadenceMax := 10 }

/-- The longest chain of entry actions one dispatch can make (41_event_queue.md R158: "after at most four entry
actions"). -/
def chainBound : Nat := 4

/-- The HDMI column of 20_memory.md R62. PRESUMED (general knowledge, 93 I3): unsafe, entry 15. -/
def portMapHdmi : PortMap :=
  { bksv := 0x00#8, ro := 0x08#8, aksv := 0x10#8, ainfo := 0x15#8, an := 0x18#8, vh0 := 0x20#8, vh1 := 0x24#8,
    vh2 := 0x28#8, vh3 := 0x2C#8, vh4 := 0x30#8, bcaps := 0x40#8, bstatus := 0x41#8, ksvFifo := 0x43#8 }

/-- The DisplayPort column of 20_memory.md R62. PRESUMED (general knowledge, 93 I3): unsafe, entry 15. -/
def portMapDp : PortMap :=
  { bksv := 0x00#8, ro := 0x05#8, aksv := 0x07#8, ainfo := 0x3B#8, an := 0x0C#8, vh0 := 0x14#8, vh1 := 0x18#8,
    vh2 := 0x1C#8, vh3 := 0x20#8, vh4 := 0x24#8, bcaps := 0x28#8, bstatus := 0x29#8, ksvFifo := 0x2C#8 }

/-- The parameters of the reset instance: the defaults of R8, the stated values of R7; Tx and HDMI are DESIGN CHOICE (R8
gives no default): unsafe, entry 2; the two OPEN parameters are free, entry 3; every hook supplied is DESIGN CHOICE,
entry 27. -/
def resetParams : Params :=
  { direction := .tx, txPresent := true, rxPresent := true, protocol := .hdmi, portMap := portMapHdmi,
    ksvChunk := Config.ksvChunk, phyUpAtReset := true, wfrPollOnPoll := true, version := Config.version,
    statWidth := 32,
    hooks := { isKsvRevoked := true, timerStart := true, timerStop := true, timerBusyDelay := true },
    literals := statedLiterals }

end Sys2Proof.Machine
end

