-- ==== Sys2Proof/Machine/State.lean ====
section
/-! DEFINITION. The state of one instance (10_state.md R22), as plain data, and its value at reset. -/

namespace Sys2Proof.Machine

/-- The 12 Tx states (30_encoding.md R91). -/
inductive TxState where
  | disabled
  | determineRxCapable
  | exchangeKsvs
  | computations
  | validateRx
  | authenticated
  | linkIntegrityCheck
  | testForRepeater
  | waitForReady
  | readKsvList
  | unauthenticated
  | phyDown
  deriving DecidableEq, Repr

/-- The 6 Rx states (30_encoding.md R92). -/
inductive RxState where
  | disabled
  | unauthenticated
  | computations
  | authenticated
  | linkIntegrityFailed
  | phyDown
  deriving DecidableEq, Repr

/-- The 9 Tx events (30_encoding.md R93). -/
inductive TxEvent where
  | authenticate
  | check
  | disable
  | enable
  | linkDown
  | phyDown
  | phyUp
  | poll
  | timeout
  deriving DecidableEq, Repr

/-- The 8 Rx events (30_encoding.md R94). -/
inductive RxEvent where
  | authenticate
  | check
  | disable
  | enable
  | phyDown
  | phyUp
  | poll
  | updateRi
  deriving DecidableEq, Repr

/-- An event of either machine. -/
inductive Event where
  | tx (e : TxEvent)
  | rx (e : RxEvent)
  deriving DecidableEq, Repr

/-- What `Cipher.DoRequest` can start (20_memory.md R67). The block never issues `rekey`. -/
inductive CipherJob where
  | block
  | rekey
  | rng
  deriving DecidableEq, Repr

/-- The requests the block issues to its three collaborators (20_memory.md R64 to R69). -/
inductive Request where
  | portRead (off : Byte) (n : Nat)
  | portWrite (off : Byte) (bytes : List Byte)
  | portIsCapable
  | portIsRepeater
  | portGetRepeaterInfo
  | portSetAuthCallback (posts : Event)
  | portEnable
  | portDisable
  | cipherEnable
  | cipherDisable
  | cipherSetRemoteKsv (ksv : Wide)
  | cipherGetLocalKsv
  | cipherSetB (x y z : Word)
  | cipherDoRequest (job : CipherJob)
  | cipherIsRequestComplete
  | cipherGetRi
  | cipherGetRo
  | cipherGetMi
  | cipherGetMo
  | cipherSetLinkStateCheck (on : Bool)
  | cipherSetRiUpdate (on : Bool)
  | cipherSetLinkFailCallback (posts : Event)
  | cipherSetRiUpdateCallback (posts : Event)
  | cipherEnableEncryption (map : Wide)
  | cipherDisableEncryption (map : Wide)
  | cipherGetEncryption
  | cipherIsLinkUp
  | cipherSetKeySelect (n : Byte)
  | cipherSetLaneCount (n : Byte)
  | timerStart (ms : Nat)
  | timerStop
  | timerBusyDelay (ms : Nat)
  | isKsvRevoked (ksv : Wide)
  deriving DecidableEq, Repr

/-- The answer of a `Port.Read`: the signed byte count and the bytes (20_memory.md R64). -/
structure ReadAnswer where
  count : Int
  bytes : List Byte
  deriving DecidableEq, Repr

/-- The collaborators' answers still to come, each list in the order its requests are issued. An answer that a list
no longer holds is a free value of Config. The model's own field: entry 4. -/
structure Answers where
  /-- `Port.Read`. -/
  reads : List ReadAnswer
  /-- `Port.Write`: the signed byte count. -/
  writes : List Int
  /-- `Port.IsCapable`. -/
  capable : List Bool
  /-- `Port.IsRepeater`. -/
  repeater : List Bool
  /-- `Port.GetRepeaterInfo`: none is an error, "not ready". -/
  repeaterInfo : List (Option Half)
  /-- `Cipher.IsRequestComplete`. -/
  complete : List Bool
  /-- `Cipher.GetRi`. -/
  ri : List Half
  /-- `Cipher.GetRo`. -/
  ro : List Half
  /-- `Cipher.GetMi`. -/
  mi : List Wide
  /-- `Cipher.GetMo`. -/
  mo : List Wide
  /-- `Cipher.GetLocalKsv`. -/
  localKsv : List Wide
  /-- `Cipher.GetEncryption`. -/
  encryption : List Wide
  /-- `Cipher.IsLinkUp`. -/
  linkUp : List Bool
  /-- `Platform.IsKsvRevoked`. -/
  revoked : List Bool
  /-- `Platform.TimerBusyDelay`: whether it returns; unlisted delays return (entry 28). -/
  delays : List Bool
  deriving DecidableEq, Repr

/-- An interrupt-context happening (60_exceptions.md R326). -/
inductive Interrupt where
  /-- The Port's re-authentication request callback. -/
  | portReauth
  /-- The Cipher's Ri-update callback. -/
  | cipherRiUpdate
  /-- The Cipher's link-failure callback. -/
  | cipherLinkFail
  /-- The Platform one-shot timer's expiry, which issues the `TIMEOUT` command. -/
  | timerExpiry
  deriving DecidableEq, Repr

/-- What reaches the instance from outside, between commands. -/
inductive Input where
  | fetch (f : FetchWord)
  | interrupt (i : Interrupt)
  deriving DecidableEq, Repr

/-- The result of a host command (30_encoding.md R109). -/
inductive Result where
  | success
  | failure
  | flag (b : Bool)
  | map (m : Wide)
  | version (v : Word)
  | text (t : String)
  deriving DecidableEq, Repr

/-- The Tx statistics counters (10_state.md R31), each below 2^`P_STAT_WIDTH` (entry 26). -/
structure TxStats where
  authFailed : Nat
  authPassed : Nat
  readFailures : Nat
  linkCheckPassed : Nat
  linkCheckFailed : Nat
  deriving DecidableEq, Repr

/-- The registers of a Tx instance (10_state.md R22 to R31). The state registers hold the encodings of
30_encoding.md R91. -/
structure TxRegs where
  currentState : BitVec 4
  previousState : BitVec 4
  encryptionMap : Wide
  an : Wide
  isRepeater : Bool
  repeaterInfo : Half
  stats : TxStats
  deriving DecidableEq, Repr

/-- The registers of an Rx instance (10_state.md R22 to R24, R32). The state registers hold the encodings of
30_encoding.md R92. -/
structure RxRegs where
  currentState : BitVec 3
  previousState : BitVec 3
  riUpdates : Nat
  deriving DecidableEq, Repr

/-- The callbacks registered with the collaborators, each the event it posts (10_state.md R36, 60_exceptions.md R326);
none while unregistered. -/
structure Callbacks where
  linkFail : Option Event
  riUpdate : Option Event
  portAuth : Option Event
  deriving DecidableEq, Repr

/-- One instance of the block. -/
structure State where
  /-- The instance's parameters (00_scope.md R8); no step writes them (10_state.md R34). -/
  params : Params
  /-- The registers of a Tx instance; unused in an Rx instance (entry 31). -/
  tx : TxRegs
  /-- The registers of an Rx instance; unused in a Tx instance (entry 31). -/
  rx : RxRegs
  /-- `PendingEvents` (10_state.md R25). -/
  pendingEvents : Half
  /-- `PhyUp` (10_state.md R30). -/
  phyUp : Bool
  /-- `Ready` (10_state.md R38). -/
  ready : Bool
  /-- The registered callbacks (10_state.md R36). -/
  callbacks : Callbacks
  /-- The Platform one-shot timer: the ms it is armed for, none while it is not (10_state.md R36). -/
  timer : Option Nat
  /-- The answers still to come. The model's own: entry 4. -/
  answers : Answers
  /-- How many answers have been taken. The model's own: entry 4. -/
  draws : Nat
  /-- Every request issued, oldest first. The model's own: entry 24. -/
  requests : List Request
  /-- What is still to come from outside, next first. The model's own: entry 5. -/
  inputs : List Input
  /-- The interrupts that fall inside commands, one list for each interruption point to come. The model's own:
  entry 9. -/
  arrivals : List (List Interrupt)
  /-- The result of the last host command, none before the first. The model's own: entry 25. -/
  result : Option Result
  deriving DecidableEq, Repr

/-- Why the machine stops with a fault (60_exceptions.md R325, R340; 93 I6, I10, I12, I20). All are safe: nothing is
proved of what the hardware does next. -/
inductive Fault where
  /-- A state register holds a reserved encoding. Raised by dispatch, `ISINPROG`, `ISAUTH` and a Tx `ENENC`; R325, I20.
  Safe. -/
  | reservedState
  /-- A drain, or an event word, has a reserved event bit set. Raised by the drain and by the step; R95, R325, I6.
  Safe. -/
  | reservedEvent
  /-- The Port answered more bytes than were requested. Raised by every port transfer; R64, R325, I10. Safe. -/
  | countExceedsRequest
  /-- "stuck": the cipher never completes the RNG request. Raised by `GenerateAn`; R340, I12. Safe. -/
  | stuckCipherRng
  /-- "stuck": a busy delay never returns. Raised by `ApplyEncryption`; R340. Safe. -/
  | stuckBusyDelay
  /-- `P_KSV_CHUNK` is 0, outside R8's range, so the list read would never end. Raised by `KsvListAttempt`. Safe. -/
  | ksvChunkZero
  /-- A dispatch of more than four entry actions, which R158 excludes. Raised by the dispatch loops; entry 32. Safe. -/
  | chainTooLong
  deriving DecidableEq, Repr

/-- Why an instruction has no meaning here. -/
inductive Refusal where
  /-- The instruction is not modelled. Raised by a refused arm of `exec`; there is none. Safe. -/
  | notModelled (mnemonic : String)
  /-- An event row of the other direction: "one instance … is either a transmitter or a receiver, never both" (R3).
  Raised by the event rows. Safe. -/
  | eventOfOtherDirection
  deriving DecidableEq, Repr

/-- Every Tx counter at 0 (70_reset_and_hazards.md R350). -/
def TxStats.zero : TxStats :=
  { authFailed := 0, authPassed := 0, readFailures := 0, linkCheckPassed := 0, linkCheckFailed := 0 }

/-- The Tx registers' reset values (70_reset_and_hazards.md R350). -/
def TxRegs.reset : TxRegs :=
  { currentState := 0#4, previousState := 0#4, encryptionMap := 0#64, an := 0#64, isRepeater := false,
    repeaterInfo := 0#16, stats := .zero }

/-- The Rx registers' reset values (70_reset_and_hazards.md R350). -/
def RxRegs.reset : RxRegs :=
  { currentState := 0#3, previousState := 0#3, riUpdates := 0 }

/-- No callback registered (70_reset_and_hazards.md R352). -/
def Callbacks.none : Callbacks :=
  { linkFail := .none, riUpdate := .none, portAuth := .none }

/-- No answer listed. -/
def Answers.none : Answers :=
  { reads := [], writes := [], capable := [], repeater := [], repeaterInfo := [], complete := [], ri := [], ro := [],
    mi := [], mo := [], localKsv := [], encryption := [], linkUp := [], revoked := [], delays := [] }

/-- An instance with parameters `p` at power-on: `Ready` is 0 (10_state.md R38); every other register is unspecified
there (R350) and holds its reset value of R22 (DESIGN CHOICE, unsafe: entry 1). -/
def State.powerOn (p : Params) : State :=
  { params := p, tx := .reset, rx := .reset, pendingEvents := 0#16, phyUp := p.phyUpAtReset, ready := false,
    callbacks := .none, timer := .none, answers := .none, draws := 0, requests := [], inputs := [], arrivals := [],
    result := .none }

/-- The machine after reset: the power-on state of the reset instance (entries 1, 2, 5). -/
def State.reset : State := .powerOn resetParams

end Sys2Proof.Machine
end

