-- ==== Sys2Proof/Machine/Operands.lean ====
section
/-! DEFINITION. Encodings and data fields of 30_encoding.md, and the byte order of 00_scope.md R10. -/

namespace Sys2Proof.Machine

/-- `LE_n(v)`: `n` bytes, least significant first (00_scope.md R10). The order is PRESUMED by the spec (93 I1):
entry 13. -/
def leBytes {w : Nat} : Nat → BitVec w → List Byte
  | 0, _ => []
  | n + 1, v => v.setWidth 8 :: leBytes n (v >>> 8)

/-- `unLE(b)` at width `w` (00_scope.md R10). -/
def unLE (w : Nat) : List Byte → BitVec w
  | [] => 0#w
  | b :: bs => b.setWidth w ||| (unLE w bs <<< 8)

/-- The Tx state encodings (30_encoding.md R91). -/
def TxState.code : TxState → BitVec 4
  | .disabled => 0#4
  | .determineRxCapable => 1#4
  | .exchangeKsvs => 2#4
  | .computations => 3#4
  | .validateRx => 4#4
  | .authenticated => 5#4
  | .linkIntegrityCheck => 6#4
  | .testForRepeater => 7#4
  | .waitForReady => 8#4
  | .readKsvList => 9#4
  | .unauthenticated => 10#4
  | .phyDown => 11#4

/-- The Tx state an encoding names; none for the reserved values 12 to 15 (30_encoding.md R91). -/
def txStateOf (c : BitVec 4) : Option TxState :=
  match c.toNat with
  | 0 => some .disabled
  | 1 => some .determineRxCapable
  | 2 => some .exchangeKsvs
  | 3 => some .computations
  | 4 => some .validateRx
  | 5 => some .authenticated
  | 6 => some .linkIntegrityCheck
  | 7 => some .testForRepeater
  | 8 => some .waitForReady
  | 9 => some .readKsvList
  | 10 => some .unauthenticated
  | 11 => some .phyDown
  | _ => none

/-- The Rx state encodings (30_encoding.md R92). -/
def RxState.code : RxState → BitVec 3
  | .disabled => 0#3
  | .unauthenticated => 1#3
  | .computations => 2#3
  | .authenticated => 3#3
  | .linkIntegrityFailed => 4#3
  | .phyDown => 5#3

/-- The Rx state an encoding names; none for the reserved values 6 and 7 (30_encoding.md R92). -/
def rxStateOf (c : BitVec 3) : Option RxState :=
  match c.toNat with
  | 0 => some .disabled
  | 1 => some .unauthenticated
  | 2 => some .computations
  | 3 => some .authenticated
  | 4 => some .linkIntegrityFailed
  | 5 => some .phyDown
  | _ => none

/-- The Tx event numbers (30_encoding.md R93). -/
def TxEvent.number : TxEvent → Nat
  | .authenticate => 1
  | .check => 2
  | .disable => 3
  | .enable => 4
  | .linkDown => 5
  | .phyDown => 6
  | .phyUp => 7
  | .poll => 8
  | .timeout => 9

/-- The Rx event numbers (30_encoding.md R94). -/
def RxEvent.number : RxEvent → Nat
  | .authenticate => 1
  | .check => 2
  | .disable => 3
  | .enable => 4
  | .phyDown => 5
  | .phyUp => 6
  | .poll => 7
  | .updateRi => 8

/-- The Tx events in ascending event number: the order of a drain (41_event_queue.md R153, 60_exceptions.md R329). -/
def txEventOrder : List TxEvent :=
  [.authenticate, .check, .disable, .enable, .linkDown, .phyDown, .phyUp, .poll, .timeout]

/-- The Rx events in ascending event number (41_event_queue.md R153, 60_exceptions.md R329). -/
def rxEventOrder : List RxEvent :=
  [.authenticate, .check, .disable, .enable, .phyDown, .phyUp, .poll, .updateRi]

/-- The mask `1 << n` of a Tx event (30_encoding.md R93). -/
def TxEvent.mask (e : TxEvent) : Half := 1#16 <<< e.number

/-- The mask `1 << n` of an Rx event (30_encoding.md R94). -/
def RxEvent.mask (e : RxEvent) : Half := 1#16 <<< e.number

/-- The number of one-bits among the low `n` bits (00_scope.md R9). -/
def popcountLow (n : Nat) (x : Wide) : Nat :=
  ((List.range n).filter fun i => x.getLsbD i).length

/-- `IsValidKsv` (30_encoding.md R99): exactly `KSV_ONES` one-bits in the KSV's bits, 39:0. -/
def isValidKsv (l : Literals) (x : Wide) : Bool := popcountLow l.ksvBits x == l.ksvOnes

/-- `DEVICE_COUNT`, bits 6:0 of `RepeaterInfo` (30_encoding.md R100). The positions of R100's fields are PRESUMED by
the spec (93 I4): entry 16. -/
def deviceCount (i : Half) : Nat := (i.extractLsb' 0 7).toNat

/-- `overflow(i) = (i[7] = 1) or (i[11] = 1)` (30_encoding.md R100). -/
def repeaterOverflow (i : Half) : Bool := i.getLsbD 7 || i.getLsbD 11

/-- `x` of `SetB` (30_encoding.md R101). The split is PRESUMED by the spec (93 I2): entry 14. -/
def bRegX (an : Wide) : Word := (an.extractLsb' 0 28).setWidth 32

/-- `y` of `SetB` (30_encoding.md R101). -/
def bRegY (an : Wide) : Word := (an.extractLsb' 28 28).setWidth 32

/-- `z` of `SetB`, with the repeater bit in bit 8 (30_encoding.md R101). -/
def bRegZ (an : Wide) (rep : Bool) : Word :=
  (an.extractLsb' 56 8).setWidth 32 ||| ((BitVec.ofBool rep).setWidth 32 <<< 8)

/-- The DisplayPort link-failure bit of `BSTATUS` (30_encoding.md R107). PRESUMED by the spec (93 I7): entry 19. -/
def dpLinkFailureBit : Byte := 0x04#8

/-- The byte that clears `AINFO` (30_encoding.md R107). -/
def ainfoClear : Byte := 0x00#8

/-- A counter increment, modulo 2^`P_STAT_WIDTH` (00_scope.md R14, 10_state.md R31). -/
def bump (width n : Nat) : Nat := (n + 1) % 2 ^ width

/-- The offsets `VH0` to `VH4` in order (43_tx_procedures.md R219). -/
def vhOffsets (m : PortMap) : List Byte := [m.vh0, m.vh1, m.vh2, m.vh3, m.vh4]

/-- The encoding of a command's result (30_encoding.md R109); `INFO`'s text has no fixed format. -/
def resultCode : Result → Option Wide
  | .success => some 0#64
  | .failure => some 1#64
  | .flag b => some (if b then 1#64 else 0#64)
  | .map m => some m
  | .version v => some (v.setWidth 64)
  | .text _ => none

end Sys2Proof.Machine
end

