-- ==== Sys2Proof/Machine/Ops.lean ====
section
/-! DEFINITION. The named operations over the state: registers, collaborator requests and their answers
(20_memory.md R64 to R70), and the command frame (40_commands.md R120). The block has no trap and no exception entry
(60_exceptions.md, opening; R331): what a processor calls raising an exception is `commandFailure` here (R321), and
taking an interrupt is the single post of `Flags.lean` (R326, R331); there is no return from it (R332). -/

namespace Sys2Proof.Machine

/-- Write the Tx registers. -/
def State.setTx (s : State) (r : TxRegs) : State := { s with tx := r }

/-- Write the Rx registers. -/
def State.setRx (s : State) (r : RxRegs) : State := { s with rx := r }

/-- Write `PendingEvents`. -/
def State.setPending (s : State) (p : Half) : State := { s with pendingEvents := p }

/-- Write `PhyUp`. -/
def State.setPhyUp (s : State) (b : Bool) : State := { s with phyUp := b }

/-- Write `Ready`. -/
def State.setReady (s : State) (b : Bool) : State := { s with ready := b }

/-- The registered callbacks become `c`. -/
def State.setCallbacks (s : State) (c : Callbacks) : State := { s with callbacks := c }

/-- The one-shot timer becomes armed or not. -/
def State.setTimer (s : State) (t : Option Nat) : State := { s with timer := t }

/-- The inputs still to come. -/
def State.setInputs (s : State) (l : List Input) : State := { s with inputs := l }

/-- The interruption points still to come. -/
def State.setArrivals (s : State) (l : List (List Interrupt)) : State := { s with arrivals := l }

/-- The result of the command that ends (30_encoding.md R109). -/
def State.setResult (s : State) (r : Result) : State := { s with result := some r }

/-- A request to a collaborator goes out, after all earlier ones (20_memory.md R74). -/
def State.issue (s : State) (r : Request) : State := { s with requests := s.requests ++ [r] }

/-- An answer is taken: the listed answers become `a`. -/
def State.takeAnswer (s : State) (a : Answers) : State := { s with answers := a, draws := s.draws + 1 }

/-- Take the next answer of one kind: the first of its list, or a free value once the list is used up (entry 4). -/
def State.draw {α : Type} (s : State) (stream : List α) (keep : List α → Answers) (free : Nat → α) : α × State :=
  match stream with
  | a :: rest => (a, s.takeAnswer (keep rest))
  | [] => (free s.draws, s.takeAnswer s.answers)

/-! ## Port requests (20_memory.md R64 to R66) -/

/-- A transfer of `n` bytes that answers `k` succeeded exactly when `k = n` (R64, R65); `k > n` is outside the
contract: the model faults (R325, 93 I10). -/
def transferred (n : Nat) (k : Int) : Except Fault Bool :=
  if (n : Int) < k then .error .countExceedsRequest else .ok (k == (n : Int))

/-- The `n` bytes of a complete read; a byte the answer does not list is free (R64, entry 36). -/
def delivered (n : Nat) (bytes : List Byte) (c : Nat) : List Byte :=
  (List.range n).map fun i => bytes.getD i (Config.freeByte c i)

/-- `Port.Read(off, n)`: the bytes on success, none on a short read, whose content is not used (R64). -/
def State.portRead (s : State) (off : Byte) (n : Nat) : Except Fault (Option (List Byte) × State) := do
  let r := (s.issue (.portRead off n)).draw s.answers.reads (fun l => { s.answers with reads := l })
    (fun c => { count := (n : Int) - (Config.freeShortfall c : Int), bytes := [] })
  let ok ← transferred n r.1.count
  .ok (if ok then some (delivered n r.1.bytes s.draws) else none, r.2)

/-- `Port.Write(off, bytes)`: whether it was complete (R65). -/
def State.portWrite (s : State) (off : Byte) (bytes : List Byte) : Except Fault (Bool × State) := do
  let r := (s.issue (.portWrite off bytes)).draw s.answers.writes (fun l => { s.answers with writes := l })
    (fun c => (bytes.length : Int) - (Config.freeShortfall c : Int))
  let ok ← transferred bytes.length r.1
  .ok (ok, r.2)

/-- `Port.IsCapable()` (R66). -/
def State.portIsCapable (s : State) : Bool × State :=
  (s.issue .portIsCapable).draw s.answers.capable (fun l => { s.answers with capable := l }) Config.freeFlag

/-- `Port.IsRepeater()` (R66). -/
def State.portIsRepeater (s : State) : Bool × State :=
  (s.issue .portIsRepeater).draw s.answers.repeater (fun l => { s.answers with repeater := l }) Config.freeFlag

/-- `Port.GetRepeaterInfo()`: none is an error, "not ready" (R66). -/
def State.portGetRepeaterInfo (s : State) : Option Half × State :=
  (s.issue .portGetRepeaterInfo).draw s.answers.repeaterInfo (fun l => { s.answers with repeaterInfo := l })
    Config.freeRepeaterInfo

/-- `Port.SetAuthCallback` with a routine that posts `e` (R66). -/
def State.portSetAuthCallback (s : State) (e : Event) : State :=
  (s.issue (.portSetAuthCallback e)).setCallbacks { s.callbacks with portAuth := some e }

/-! ## Cipher requests (20_memory.md R67, R68) -/

/-- `Cipher.GetRi()` (R67). -/
def State.cipherGetRi (s : State) : Half × State :=
  (s.issue .cipherGetRi).draw s.answers.ri (fun l => { s.answers with ri := l }) Config.freeHalf

/-- `Cipher.GetRo()` (R67). -/
def State.cipherGetRo (s : State) : Half × State :=
  (s.issue .cipherGetRo).draw s.answers.ro (fun l => { s.answers with ro := l }) Config.freeHalf

/-- `Cipher.GetMi()` (R67). -/
def State.cipherGetMi (s : State) : Wide × State :=
  (s.issue .cipherGetMi).draw s.answers.mi (fun l => { s.answers with mi := l }) Config.freeWide

/-- `Cipher.GetMo()` (R67). -/
def State.cipherGetMo (s : State) : Wide × State :=
  (s.issue .cipherGetMo).draw s.answers.mo (fun l => { s.answers with mo := l }) Config.freeWide

/-- `Cipher.GetLocalKsv()` (R67). -/
def State.cipherGetLocalKsv (s : State) : Wide × State :=
  (s.issue .cipherGetLocalKsv).draw s.answers.localKsv (fun l => { s.answers with localKsv := l }) Config.freeWide

/-- `Cipher.GetEncryption()` (R67). -/
def State.cipherGetEncryption (s : State) : Wide × State :=
  (s.issue .cipherGetEncryption).draw s.answers.encryption (fun l => { s.answers with encryption := l })
    Config.freeWide

/-- `Cipher.IsLinkUp()` (R67). -/
def State.cipherIsLinkUp (s : State) : Bool × State :=
  (s.issue .cipherIsLinkUp).draw s.answers.linkUp (fun l => { s.answers with linkUp := l }) Config.freeFlag

/-- `Cipher.IsRequestComplete()` (R67, R68). -/
def State.cipherIsRequestComplete (s : State) : Bool × State :=
  (s.issue .cipherIsRequestComplete).draw s.answers.complete (fun l => { s.answers with complete := l })
    Config.freeFlag

/-- `Cipher.SetLinkFailCallback` with a routine that posts `e` (R67). -/
def State.cipherSetLinkFailCallback (s : State) (e : Event) : State :=
  (s.issue (.cipherSetLinkFailCallback e)).setCallbacks { s.callbacks with linkFail := some e }

/-- `Cipher.SetRiUpdateCallback` with a routine that posts `e` (R67). -/
def State.cipherSetRiUpdateCallback (s : State) (e : Event) : State :=
  (s.issue (.cipherSetRiUpdateCallback e)).setCallbacks { s.callbacks with riUpdate := some e }

/-- `n` further completion queries, each answered: the free end of a wait. -/
def State.queryComplete : Nat → State → State
  | 0, s => s
  | n + 1, s => State.queryComplete n ((s.issue .cipherIsRequestComplete).takeAnswer s.answers)

/-- Ask `Cipher.IsRequestComplete()` until it answers true (43_tx_procedures.md R213). `listed` is what is left of the
listed answers; past them the number of further queries is free, and none is "stuck" (93 I12, entry 20). -/
def State.awaitCipher : List Bool → State → Except Fault State
  | done :: listed, s =>
    let s := (s.issue .cipherIsRequestComplete).takeAnswer { s.answers with complete := listed }
    if done then .ok s else State.awaitCipher listed s
  | [], s =>
    match Config.freeWait s.draws with
    | some n => .ok (s.queryComplete (n + 1))
    | none => .error .stuckCipherRng

/-! ## Platform requests (20_memory.md R69, R70) -/

/-- `Platform.IsKsvRevoked(ksv)`; without the hook it answers false (R70). -/
def State.isKsvRevoked (s : State) (ksv : Wide) : Bool × State :=
  if s.params.hooks.isKsvRevoked then
    (s.issue (.isKsvRevoked ksv)).draw s.answers.revoked (fun l => { s.answers with revoked := l }) Config.freeFlag
  else (false, s)

/-- `Platform.TimerStart(ms)` arms the one-shot timer (R69); without the hook it does nothing (R70). On a timer already
armed, which the spec says never happens (60_exceptions.md R334) and which does happen where only the `TimerStop` hook is
missing, the new arming replaces the old one, so that one expiry follows: DESIGN CHOICE, entry 39. -/
def State.startTimer (s : State) (ms : Nat) : State :=
  if s.params.hooks.timerStart then (s.issue (.timerStart ms)).setTimer (some ms) else s

/-- `Platform.TimerStop()` disarms the one-shot timer (R69); without the hook it does nothing (R70). -/
def State.stopTimer (s : State) : State :=
  if s.params.hooks.timerStop then (s.issue .timerStop).setTimer none else s

/-- `Platform.TimerBusyDelay(ms)` returns after `ms` ms (R69); a listed delay may never return, which is "stuck"
(60_exceptions.md R340, entry 28); without the hook it returns at once (R70). -/
def State.busyDelay (s : State) (ms : Nat) : Except Fault State :=
  if s.params.hooks.timerBusyDelay then
    let r := (s.issue (.timerBusyDelay ms)).draw s.answers.delays (fun l => { s.answers with delays := l })
      (fun _ => true)
    if r.1 then .ok r.2 else .error .stuckBusyDelay
  else .ok s

/-! ## The command frame (40_commands.md R120) -/

/-- The instance's direction is built in (00_scope.md R8, 40_commands.md R120). -/
def Params.directionPresent (p : Params) : Bool :=
  match p.direction with
  | .tx => p.txPresent
  | .rx => p.rxPresent

/-- `raise Failure`: the command ends with `FAILURE`, no register changed and no request issued (60_exceptions.md
R321). -/
def commandFailure (s : State) : Host.Outcome State Fault Refusal := .next (s.setResult .failure)

/-- The end of a command's body: its result, or the fault that stopped it. -/
def finish (r : Except Fault (Result × State)) : Host.Outcome State Fault Refusal :=
  match r with
  | .ok (v, s) => .next (s.setResult v)
  | .error f => .fault f

/-- The frame of `CFGINIT`, which does not need `Ready` (R120). -/
def initFrame (body : State → Except Fault (Result × State)) (s : State) : Host.Outcome State Fault Refusal :=
  if Params.directionPresent s.params then finish (body s) else commandFailure s

/-- The frame of every other command (R120). The illegal words of its first line never get here: the step ends them
with `commandFailure`. -/
def commandFrame (body : State → Except Fault (Result × State)) (s : State) : Host.Outcome State Fault Refusal :=
  if s.ready then
    if Params.directionPresent s.params then finish (body s) else commandFailure s
  else commandFailure s

/-- A body that ends in `SUCCESS`. -/
def succeed (r : Except Fault State) : Except Fault (Result × State) := r.map fun s => (.success, s)

/-- An event row runs on an instance of its own direction (00_scope.md R3); an event returns no result
(42_tx_events.md R170). -/
def eventFrame (d : Direction) (run : State → Except Fault State) (s : State) : Host.Outcome State Fault Refusal :=
  if s.params.direction = d then
    match run s with
    | .ok t => .next t
    | .error f => .fault f
  else .refused .eventOfOtherDirection

/-- What a word that names no instruction does: an illegal command word ends with `FAILURE` (30_encoding.md R98); a
reserved event bit faults (R95); an empty event word dispatches nothing. -/
def rejectedWord (e : DecodeError) (s : State) : Host.Outcome State Fault Refusal :=
  match e with
  | .illegalOpcode _ => commandFailure s
  | .operandBitsSet _ => commandFailure s
  | .reservedEventBit => .fault .reservedEvent
  | .noEvent => .next s

end Sys2Proof.Machine
end

