-- ==== Sys2Proof/Machine/Flags.lean ====
section
/-! DEFINITION. The event register and the one-bit registers. The block has no condition codes (10_state.md R35): its
flags are the bits of `PendingEvents` (41_event_queue.md R150 to R155) and `PhyUp` (R159). -/

namespace Sys2Proof.Machine

/-- The mask of an event (30_encoding.md R93, R94). -/
def Event.mask : Event → Half
  | .tx e => e.mask
  | .rx e => e.mask

/-- The pending events that posting `e` clears: `ENABLE` for `DISABLE`, `PHYUP` for `PHYDOWN`, nothing else
(41_event_queue.md R151, R152). -/
def Event.suppressed : Event → Half
  | .tx .disable => TxEvent.enable.mask
  | .tx .phyDown => TxEvent.phyUp.mask
  | .rx .disable => RxEvent.enable.mask
  | .rx .phyDown => RxEvent.phyUp.mask
  | .tx .authenticate | .tx .check | .tx .enable | .tx .linkDown | .tx .phyUp | .tx .poll | .tx .timeout
  | .rx .authenticate | .rx .check | .rx .enable | .rx .phyUp | .rx .poll | .rx .updateRi => 0#16

/-- `PendingEvents` after `Post(e)` (41_event_queue.md R151). -/
def postedTo (p : Half) (e : Event) : Half := (p &&& ~~~e.suppressed) ||| e.mask

/-- `Post(e)`, one indivisible step (41_event_queue.md R151). -/
def State.post (s : State) (e : Event) : State := s.setPending (postedTo s.pendingEvents e)

/-- A host command posts the event of its instance's direction. -/
def State.postFor (s : State) (t : TxEvent) (r : RxEvent) : State :=
  match s.params.direction with
  | .tx => s.post (.tx t)
  | .rx => s.post (.rx r)

/-- The action of `TIMEOUT`: a Tx posts `TIMEOUT`, an Rx does nothing (40_commands.md R135). -/
def State.postTimeout (s : State) : State :=
  match s.params.direction with
  | .tx => s.post (.tx .timeout)
  | .rx => s

/-- A collaborator calls a registered routine, whose only effect is its post (60_exceptions.md R326, R331); a routine
not registered cannot be called (70_reset_and_hazards.md R352). -/
def State.callback (s : State) (registered : Option Event) : State :=
  match registered with
  | some e => s.post e
  | none => s

/-- The one-shot timer expires: if it is armed it is armed no more and the Platform issues `TIMEOUT`, which the command
frame lets through as ever (60_exceptions.md R334, 40_commands.md R120, R135). -/
def State.expire (s : State) : State :=
  match s.timer with
  | some _ =>
    let s := s.setTimer none
    if s.ready && Params.directionPresent s.params then s.postTimeout else s
  | none => s

/-- Taking an interrupt: one indivisible post (60_exceptions.md R326, R331). -/
def State.takeInterrupt (s : State) : Interrupt → State
  | .portReauth => s.callback s.callbacks.portAuth
  | .cipherRiUpdate => s.callback s.callbacks.riUpdate
  | .cipherLinkFail => s.callback s.callbacks.linkFail
  | .timerExpiry => s.expire

/-- An interruption point inside a command: the interrupts that arrive there are taken (41_event_queue.md R155,
entry 9). -/
def State.arrive (s : State) : State :=
  match s.arrivals with
  | [] => s
  | now :: later => now.foldl State.takeInterrupt (s.setArrivals later)

/-- `UpdatePhy(e)` for a Tx event (41_event_queue.md R159). -/
def State.updatePhyTx (s : State) : TxEvent → State
  | .phyUp => s.setPhyUp true
  | .phyDown => s.setPhyUp false
  | .authenticate | .check | .disable | .enable | .linkDown | .poll | .timeout => s

/-- `UpdatePhy(e)` for an Rx event (41_event_queue.md R159). -/
def State.updatePhyRx (s : State) : RxEvent → State
  | .phyUp => s.setPhyUp true
  | .phyDown => s.setPhyUp false
  | .authenticate | .check | .disable | .enable | .poll | .updateRi => s

end Sys2Proof.Machine
end

