-- ==== Sys2Proof/Machine/Sha1.lean ====
section
/-! DEFINITION. SHA-1, the standard function (FIPS 180), which 30_encoding.md R105 names and does not define.
PRESUMED (general knowledge, 93 I8): unsafe, entry 17. Its three digests of 95_test_vectors.md V14 are tests. -/

namespace Sys2Proof.Machine

/-- The five chaining values H0 to H4. -/
structure ShaState where
  a : Word
  b : Word
  c : Word
  d : Word
  e : Word
  deriving DecidableEq, Repr

/-- The initial chaining values. -/
def shaInit : ShaState :=
  { a := 0x67452301#32, b := 0xEFCDAB89#32, c := 0x98BADCFE#32, d := 0x10325476#32, e := 0xC3D2E1F0#32 }

/-- The round function: choice, parity, majority, parity, by round number. -/
def shaF (t : Nat) (x y z : Word) : Word :=
  if t < 20 then (x &&& y) ^^^ (~~~x &&& z)
  else if t < 40 then x ^^^ y ^^^ z
  else if t < 60 then (x &&& y) ^^^ (x &&& z) ^^^ (y &&& z)
  else x ^^^ y ^^^ z

/-- The round constant, by round number. -/
def shaK (t : Nat) : Word :=
  if t < 20 then 0x5A827999#32
  else if t < 40 then 0x6ED9EBA1#32
  else if t < 60 then 0x8F1BBCDC#32
  else 0xCA62C1D6#32

/-- Round `t` with schedule word `w`. -/
def shaRound (t : Nat) (w : Word) (s : ShaState) : ShaState :=
  { a := s.a.rotateLeft 5 + shaF t s.b s.c s.d + s.e + shaK t + w
    b := s.a
    c := s.b.rotateLeft 30
    d := s.c
    e := s.d }

/-- `n` rounds from round `t`. `win` holds the schedule words `W t` to `W (t+15)`; each round takes the first and
appends `W (t+16)`, the rotated sum of four of them. -/
def shaRounds : Nat → Nat → List Word → ShaState → ShaState
  | 0, _, _, s => s
  | n + 1, t, win, s =>
    let w0 := win.headD 0#32
    let next := (win.getD 13 0#32 ^^^ win.getD 8 0#32 ^^^ win.getD 2 0#32 ^^^ w0).rotateLeft 1
    shaRounds n (t + 1) (win.drop 1 ++ [next]) (shaRound t w0 s)

/-- The first `n` 32-bit words of a byte string, each most significant byte first. -/
def shaWords : Nat → List Byte → List Word
  | n + 1, b0 :: b1 :: b2 :: b3 :: rest => (b0 ++ b1 ++ b2 ++ b3 : BitVec (8 + 8 + 8 + 8)) :: shaWords n rest
  | _, _ => []

/-- The chaining value after one 64-byte block. -/
def shaBlock (h : ShaState) (block : List Byte) : ShaState :=
  let r := shaRounds 80 0 (shaWords 16 block) h
  { a := h.a + r.a, b := h.b + r.b, c := h.c + r.c, d := h.d + r.d, e := h.e + r.e }

/-- `n` bytes of a number, most significant first. -/
def shaBigEndian : Nat → Nat → List Byte
  | 0, _ => []
  | n + 1, v => BitVec.ofNat 8 (v / 256 ^ n) :: shaBigEndian n v

/-- The padded message: a one bit, zeros to 8 bytes short of a whole block, the length in bits. -/
def shaPad (m : List Byte) : List Byte :=
  m ++ [0x80#8] ++ List.replicate ((119 - m.length % 64) % 64) 0#8 ++ shaBigEndian 8 (8 * m.length)

/-- The chaining value after `n` blocks. -/
def shaBlocks : Nat → List Byte → ShaState → ShaState
  | 0, _, h => h
  | n + 1, m, h => shaBlocks n (m.drop 64) (shaBlock h (m.take 64))

/-- The digest's five words H_0 to H_4 (30_encoding.md R104). -/
def sha1 (m : List Byte) : List Word :=
  let p := shaPad m
  let h := shaBlocks (p.length / 64) p shaInit
  [h.a, h.b, h.c, h.d, h.e]

end Sys2Proof.Machine
end

