-- ==== Sys2Proof/Machine/TxProcedures.lean ====
section
/-! DEFINITION. The transmitter's procedures (43_tx_procedures.md). A procedure that chooses `next` returns it beside
the state. -/

namespace Sys2Proof.Machine

/-- `ReadFailure()` (43_tx_procedures.md R223). -/
def State.readFailure (s : State) : State :=
  s.setTx { s.tx with
    stats := { s.tx.stats with readFailures := bump s.params.statWidth s.tx.stats.readFailures } }

/-- `Stats.AuthFailed <- Stats.AuthFailed + 1` (10_state.md R31). -/
def State.countAuthFailed (s : State) : State :=
  s.setTx { s.tx with stats := { s.tx.stats with authFailed := bump s.params.statWidth s.tx.stats.authFailed } }

/-- `Stats.AuthPassed <- Stats.AuthPassed + 1` (10_state.md R31). -/
def State.countAuthPassed (s : State) : State :=
  s.setTx { s.tx with stats := { s.tx.stats with authPassed := bump s.params.statWidth s.tx.stats.authPassed } }

/-- `Stats.LinkCheckPassed <- Stats.LinkCheckPassed + 1` (10_state.md R31). -/
def State.countLinkCheckPassed (s : State) : State :=
  s.setTx { s.tx with
    stats := { s.tx.stats with linkCheckPassed := bump s.params.statWidth s.tx.stats.linkCheckPassed } }

/-- `Stats.LinkCheckFailed <- Stats.LinkCheckFailed + 1` (10_state.md R31). -/
def State.countLinkCheckFailed (s : State) : State :=
  s.setTx { s.tx with
    stats := { s.tx.stats with linkCheckFailed := bump s.params.statWidth s.tx.stats.linkCheckFailed } }

/-- Write `An` (10_state.md R27). -/
def State.setAn (s : State) (v : Wide) : State := s.setTx { s.tx with an := v }

/-- Write `IsRepeater` (10_state.md R28). -/
def State.setIsRepeater (s : State) (b : Bool) : State := s.setTx { s.tx with isRepeater := b }

/-- Write `RepeaterInfo` (10_state.md R29). -/
def State.setRepeaterInfo (s : State) (v : Half) : State := s.setTx { s.tx with repeaterInfo := v }

/-- `SetCheckLinkState(b)` (43_tx_procedures.md R222). -/
def State.setCheckLinkState (s : State) (b : Bool) : State :=
  (s.issue (.cipherSetRiUpdate b)).issue (.cipherSetLinkStateCheck b)

/-- `ApplyEncryption()` (43_tx_procedures.md R221). -/
def applyEncryption (s : State) : Except Fault State :=
  if s.tx.encryptionMap = 0#64 then .ok s
  else do
    let s1 ← s.busyDelay s.params.literals.tSettle
    (s1.issue (.cipherEnableEncryption s.tx.encryptionMap)).busyDelay s.params.literals.tSettle

/-- `DetermineRxCapable()` (43_tx_procedures.md R210). -/
def determineRxCapable (s : State) : TxState × State :=
  let r := ((s.setCheckLinkState false).issue (.cipherDisableEncryption allStreams)).portIsCapable
  (if r.1 then .exchangeKsvs else .unauthenticated, r.2)

/-- `GenerateAn()` (43_tx_procedures.md R213). -/
def generateAn (s : State) : Except Fault State := do
  let s1 := s.issue (.cipherDoRequest .rng)
  let s2 ← s1.awaitCipher s1.answers.complete
  let r := s2.cipherGetMi
  .ok (r.2.setAn (if r.1 = 0#64 then s.params.literals.anFallback else r.1))

/-- The last part of `ExchangeKsvs()`, once `An` is generated: write `AN`, write `AKSV`, load the remote KSV
(43_tx_procedures.md R211). -/
def sendAnAksv (bksv : Wide) (s : State) : Except Fault (TxState × State) := do
  let (anOk, s1) ← s.portWrite s.params.portMap.an (leBytes s.params.literals.anBytes s.tx.an)
  if anOk then
    let k := s1.cipherGetLocalKsv
    let (aksvOk, s2) ← k.2.portWrite s.params.portMap.aksv (leBytes s.params.literals.ksvBytes k.1)
    if aksvOk then .ok (.computations, s2.issue (.cipherSetRemoteKsv bksv))
    else .ok (.unauthenticated, s2.readFailure)
  else .ok (.unauthenticated, s1.readFailure)

/-- `ExchangeKsvs()` once `BKSV` is read: parity, revocation, repeater flag, `An`, then the writes
(43_tx_procedures.md R211, R212). -/
def exchangeWith (bksv : Wide) (s : State) : Except Fault (TxState × State) :=
  if isValidKsv s.params.literals bksv then
    let v := s.isKsvRevoked bksv
    if v.1 then .ok (.unauthenticated, v.2)
    else do
      let p := v.2.portIsRepeater
      let s1 ← generateAn (p.2.setIsRepeater p.1)
      sendAnAksv bksv s1
  else .ok (.unauthenticated, s)

/-- `ExchangeKsvs()` (43_tx_procedures.md R211). -/
def exchangeKsvs (s : State) : Except Fault (TxState × State) := do
  match ← s.portRead s.params.portMap.bksv s.params.literals.ksvBytes with
  | (none, s1) => .ok (.unauthenticated, s1.readFailure)
  | (some b, s1) => exchangeWith (unLE 64 b) s1

/-- `StartComputations()` (43_tx_procedures.md R214). -/
def startComputations (s : State) : State :=
  (s.issue (.cipherSetB (bRegX s.tx.an) (bRegY s.tx.an) (bRegZ s.tx.an s.tx.isRepeater))).issue
    (.cipherDoRequest .block)

/-- `PollForComputations()` (43_tx_procedures.md R215): one query, no wait. -/
def pollForComputations (s : State) : TxState × State :=
  let r := s.cipherIsRequestComplete
  (if r.1 then .validateRx else .computations, r.2)

/-- `TestForRepeater()` (43_tx_procedures.md R216). -/
def testForRepeater (s : State) : Except Fault (TxState × State) :=
  if s.tx.isRepeater then do
    let (ok, s1) ← s.portWrite s.params.portMap.ainfo [ainfoClear]
    let s2 ← applyEncryption (if ok then s1 else s1.readFailure)
    .ok (.waitForReady, s2)
  else .ok (.authenticated, s)

/-- `ReadinessCheck(atTimeout)` (43_tx_procedures.md R217). -/
def readinessCheck (atTimeout : Bool) (s : State) : TxState × State :=
  match s.portGetRepeaterInfo with
  | (none, s1) => (if atTimeout then .unauthenticated else .waitForReady, s1)
  | (some i, s1) =>
    (if repeaterOverflow i then .unauthenticated
     else if deviceCount i = 0 then .authenticated
     else .readKsvList,
     s1.setRepeaterInfo i)

/-- The FIFO reads of one attempt: `left` bytes in chunks of at most `P_KSV_CHUNK`, none when a read is short
(43_tx_procedures.md R219). With a chunk of at least 1, `fuel = left` always suffices. -/
def readKsvFifo : Nat → Nat → List Byte → State → Except Fault (Option (List Byte) × State)
  | _, 0, list, s => .ok (some list, s)
  | 0, _ + 1, _, _ => .error .ksvChunkZero
  | fuel + 1, left + 1, list, s => do
    let m := min s.params.ksvChunk (left + 1)
    match ← s.portRead s.params.portMap.ksvFifo m with
    | (none, s1) => .ok (none, s1.readFailure)
    | (some b, s1) => readKsvFifo fuel (left + 1 - m) (list ++ b) s1

/-- The `V'` words in order, each read just before it is compared; the first short read or mismatch ends the attempt
(43_tx_procedures.md R219). -/
def compareVPrime : List (Byte × Word) → State → Except Fault (Bool × State)
  | [], s => .ok (true, s)
  | (off, h) :: rest, s => do
    match ← s.portRead off s.params.literals.vPrimeWordBytes with
    | (none, s1) => .ok (false, s1.readFailure)
    | (some b, s1) => if unLE 32 b = h then compareVPrime rest s1 else .ok (false, s1)

/-- The SHA-1 message of a KSV list (30_encoding.md R105). -/
def ksvListMessage (l : Literals) (list : List Byte) (info : Half) (mo : Wide) : List Byte :=
  list ++ leBytes l.repInfoBytes info ++ leBytes l.moBytes mo

/-- `KsvListAttempt()` (43_tx_procedures.md R219). -/
def ksvListAttempt (s : State) : Except Fault (Bool × State) := do
  let total := s.params.literals.ksvBytes * deviceCount s.tx.repeaterInfo
  match ← readKsvFifo total total [] s with
  | (none, s1) => .ok (false, s1)
  | (some list, s1) =>
    let m := s1.cipherGetMo
    let digest := sha1 (ksvListMessage s.params.literals list s.tx.repeaterInfo m.1)
    compareVPrime (((vhOffsets s.params.portMap).zip digest).take s.params.literals.vPrimeWords) m.2

/-- The attempts of `ValidateKsvList()`: whether one of `n` succeeds (43_tx_procedures.md R218). -/
def ksvListAttempts : Nat → State → Except Fault (Bool × State)
  | 0, s => .ok (false, s)
  | n + 1, s => do
    let (ok, s1) ← ksvListAttempt s
    if ok then .ok (true, s1) else ksvListAttempts n s1

/-- `ValidateKsvList()` (43_tx_procedures.md R218). -/
def validateKsvList (s : State) : Except Fault (TxState × State) := do
  let (ok, s1) ← ksvListAttempts s.params.literals.nRetry s
  .ok (if ok then (.authenticated, s1) else (.unauthenticated, s1.countAuthFailed))

/-- `EnterAuthenticated()` (43_tx_procedures.md R220); `CurrentState` is the arriving-from state (41_event_queue.md
R157). -/
def enterAuthenticated (s : State) : Except Fault State := do
  let s1 := if s.tx.currentState = TxState.linkIntegrityCheck.code then s
            else s.countAuthPassed.setCheckLinkState true
  let s2 ← applyEncryption s1
  .ok (s2.setAn 0#64)

end Sys2Proof.Machine
end

