-- ==== Sys2Proof/Machine/LinkCheck.lean ====
section
/-! DEFINITION. The Ri/Ro rolling link-check engine (45_linkcheck.md). -/

namespace Sys2Proof.Machine

/-! ## Transmitter side -/

/-- The tries of `ValidateRx()` against the local `ro`: whether one of `n` matches (45_linkcheck.md R291, R299). -/
def roTries (ro : Half) : Nat → State → Except Fault (Bool × State)
  | 0, s => .ok (false, s)
  | n + 1, s => do
    match ← s.portRead s.params.portMap.ro s.params.literals.riRoBytes with
    | (none, s1) => roTries ro n s1.readFailure
    | (some b, s1) => if unLE 16 b = ro then .ok (true, s1) else roTries ro n s1

/-- `ValidateRx()` (45_linkcheck.md R291). -/
def validateRx (s : State) : Except Fault (TxState × State) := do
  let r := s.cipherGetRo
  let (ok, s1) ← roTries r.1 s.params.literals.nRetry r.2
  .ok (if ok then (.testForRepeater, s1) else (.unauthenticated, s1.countAuthFailed))

/-- The tries of `LinkIntegrityCheck()`, each with a fresh local `Ri`: whether one of `n` matches (45_linkcheck.md
R292, R299). -/
def riTries : Nat → State → Except Fault (Bool × State)
  | 0, s => .ok (false, s)
  | n + 1, s => do
    let r := s.cipherGetRi
    match ← r.2.portRead s.params.portMap.ro s.params.literals.riRoBytes with
    | (none, s1) => riTries n s1.readFailure
    | (some b, s1) => if unLE 16 b = r.1 then .ok (true, s1) else riTries n s1

/-- `LinkIntegrityCheck()` (45_linkcheck.md R292). -/
def linkIntegrityCheck (s : State) : Except Fault (TxState × State) := do
  let (ok, s1) ← riTries s.params.literals.nRetry s
  .ok (if ok then (.authenticated, s1.countLinkCheckPassed) else (.determineRxCapable, s1.countLinkCheckFailed))

/-! ## Receiver side -/

/-- `PublishRiRo()` (45_linkcheck.md R294); the write's result is not used. -/
def publishRiRo (s : State) : Except Fault State := do
  let v := match s.params.protocol with
    | .dp => s.cipherGetRo
    | .hdmi => s.cipherGetRi
  let (_, s1) ← v.2.portWrite s.params.portMap.ro (leBytes s.params.literals.riRoBytes v.1)
  .ok s1

/-- `UpdateRi()` (45_linkcheck.md R295); the write's result is not used. -/
def updateRi (s : State) : Except Fault State := do
  let v := s.cipherGetRi
  let (_, s1) ← v.2.portWrite s.params.portMap.ro (leBytes s.params.literals.riRoBytes v.1)
  .ok (s1.setRx { s1.rx with riUpdates := bump s1.params.statWidth s1.rx.riUpdates })

/-- `SetDpLinkFailure()` (45_linkcheck.md R298); a short read skips the write, whose result is not used. -/
def setDpLinkFailure (s : State) : Except Fault State := do
  match ← s.portRead s.params.portMap.bstatus 1 with
  | (none, s1) => .ok s1
  | (some b, s1) =>
    let (_, s2) ← s1.portWrite s.params.portMap.bstatus (b.map fun x => x ||| dpLinkFailureBit)
    .ok s2

/-- `CheckLinkIntegrity()` (45_linkcheck.md R296). -/
def checkLinkIntegrity (s : State) : Except Fault (RxState × State) := do
  let r := s.cipherIsLinkUp
  if r.1 then .ok (.authenticated, r.2)
  else
    match s.params.protocol with
    | .dp => do
      let s1 ← setDpLinkFailure r.2
      .ok (.linkIntegrityFailed, s1)
    | .hdmi => .ok (.linkIntegrityFailed, r.2)

/-- `RxArmLinkCheck()` (45_linkcheck.md R297); `CurrentState` is the arriving-from state (41_event_queue.md R157). -/
def rxArmLinkCheck (s : State) : State :=
  if s.rx.currentState = RxState.linkIntegrityFailed.code then s
  else
    match s.params.protocol with
    | .hdmi => s.issue (.cipherSetRiUpdate true)
    | .dp => s.issue (.cipherSetLinkStateCheck true)

end Sys2Proof.Machine
end

