-- ==== Sys2Proof/Machine/RxEvents.lean ====
section
/-! DEFINITION. The receiver's events, entry and exit actions (44_rx_events.md) and its dispatch loop
(41_event_queue.md R156). -/

namespace Sys2Proof.Machine

/-! ## Entry and exit actions -/

/-- Entry of Rx `DISABLED` (44_rx_events.md R260). -/
def rxEnterDisabled (s : State) : State :=
  let s := (s.issue .portDisable).issue .cipherDisable
  s.setRx { s.rx with riUpdates := 0 }

/-- The local KSV, asked once more when the first answer is zero (44_rx_events.md R261). -/
def rxLocalKsv (s : State) : Wide × State :=
  let r := s.cipherGetLocalKsv
  if r.1 = 0#64 then r.2.cipherGetLocalKsv else r

/-- Exit of Rx `DISABLED`, the enable sequence (44_rx_events.md R261); the write's result is not used. -/
def rxExitDisabled (s : State) : Except Fault State := do
  let s := (s.issue (.cipherSetLinkStateCheck false)).issue (.cipherSetRiUpdate false)
  let s := (s.cipherSetLinkFailCallback (.rx .check)).cipherSetRiUpdateCallback (.rx .updateRi)
  let k := rxLocalKsv (s.issue .cipherEnable)
  let (_, s1) ← k.2.portWrite s.params.portMap.bksv (leBytes s.params.literals.ksvBytes k.1)
  .ok ((s1.portSetAuthCallback (.rx .authenticate)).issue .portEnable)

/-- The cipher part of `RxStartComputations()`, once `AKSV` and `AN` are read (44_rx_events.md R262). -/
def rxLoadCipher (aksv an : Wide) (s : State) : State :=
  let r := (s.issue (.cipherSetRemoteKsv aksv)).portIsRepeater
  (r.2.issue (.cipherSetB (bRegX an) (bRegY an) (bRegZ an r.1))).issue (.cipherDoRequest .block)

/-- `RxStartComputations()` (44_rx_events.md R262): the next state is `COMPUTATIONS`, or `UNAUTHENTICATED` after a short
read. -/
def rxStartComputations (s : State) : Except Fault (RxState × State) := do
  match ← s.portRead s.params.portMap.aksv s.params.literals.ksvBytes with
  | (none, s1) => .ok (.unauthenticated, s1)
  | (some b1, s1) =>
    match ← s1.portRead s.params.portMap.an s.params.literals.anBytes with
    | (none, s2) => .ok (.unauthenticated, s2)
    | (some b2, s2) => .ok (.computations, rxLoadCipher (unLE 64 b1) (unLE 64 b2) s2)

/-- `Enter(s)` (44_rx_events.md R260, R262 to R264). -/
def rxEnter (st : RxState) (s : State) : Except Fault (RxState × State) :=
  match st with
  | .disabled => .ok (.disabled, rxEnterDisabled s)
  | .computations => rxStartComputations s
  | .authenticated => .ok (.authenticated, rxArmLinkCheck s)
  | .unauthenticated | .linkIntegrityFailed | .phyDown => .ok (st, s)

/-- `Exit(s)` (44_rx_events.md R261, R264). -/
def rxExit (st : RxState) (s : State) : Except Fault State :=
  match st with
  | .disabled => rxExitDisabled s
  | .unauthenticated | .computations | .authenticated | .linkIntegrityFailed | .phyDown => .ok s

/-! ## The runs -/

/-- Run of `AUTHENTICATE` (44_rx_events.md R251). -/
def rxRunAuthenticate (st : RxState) (s : State) : Except Fault (RxState × State) :=
  match st with
  | .unauthenticated | .authenticated | .linkIntegrityFailed => .ok (.computations, s)
  | .computations => rxStartComputations s
  | .disabled | .phyDown => .ok (st, s)

/-- Run of `CHECK` (44_rx_events.md R252). -/
def rxRunCheck (st : RxState) (s : State) : Except Fault (RxState × State) :=
  match st with
  | .authenticated | .linkIntegrityFailed => checkLinkIntegrity s
  | .disabled | .unauthenticated | .computations | .phyDown => .ok (st, s)

/-- Run of `DISABLE` (44_rx_events.md R253). -/
def rxRunDisable (st : RxState) (s : State) : Except Fault (RxState × State) :=
  match st with
  | .disabled => .ok (st, s)
  | .unauthenticated | .computations | .authenticated | .linkIntegrityFailed | .phyDown => .ok (.disabled, s)

/-- Run of `ENABLE` (44_rx_events.md R254). -/
def rxRunEnable (st : RxState) (s : State) : Except Fault (RxState × State) :=
  match st with
  | .disabled => .ok (if s.phyUp then .unauthenticated else .phyDown, s)
  | .unauthenticated | .computations | .authenticated | .linkIntegrityFailed | .phyDown => .ok (st, s)

/-- Run of `PHYDOWN` (44_rx_events.md R255). -/
def rxRunPhyDown (st : RxState) (s : State) : Except Fault (RxState × State) :=
  match st with
  | .disabled | .phyDown => .ok (st, s)
  | .unauthenticated | .computations | .authenticated | .linkIntegrityFailed => .ok (.phyDown, s)

/-- Run of `PHYUP` (44_rx_events.md R256). -/
def rxRunPhyUp (st : RxState) (s : State) : Except Fault (RxState × State) :=
  match st with
  | .phyDown => .ok (.unauthenticated, s)
  | .disabled | .unauthenticated | .computations | .authenticated | .linkIntegrityFailed => .ok (st, s)

/-- Run of `POLL` (44_rx_events.md R257): one query, no wait. -/
def rxRunPoll (st : RxState) (s : State) : Except Fault (RxState × State) :=
  match st with
  | .computations => do
    let r := s.cipherIsRequestComplete
    if r.1 then
      let s1 ← publishRiRo r.2
      .ok (.authenticated, s1)
    else .ok (.computations, r.2)
  | .disabled | .unauthenticated | .authenticated | .linkIntegrityFailed | .phyDown => .ok (st, s)

/-- Run of `UPDATE_RI` (44_rx_events.md R258). -/
def rxRunUpdateRi (st : RxState) (s : State) : Except Fault (RxState × State) :=
  match st with
  | .authenticated =>
    match s.params.protocol with
    | .hdmi => (updateRi s).map fun t => (.authenticated, t)
    | .dp => .ok (.authenticated, s)
  | .disabled | .unauthenticated | .computations | .linkIntegrityFailed | .phyDown => .ok (st, s)

/-- `Run(CurrentState, e)` (44_rx_events.md R259). -/
def rxRun (e : RxEvent) (st : RxState) (s : State) : Except Fault (RxState × State) :=
  match e with
  | .authenticate => rxRunAuthenticate st s
  | .check => rxRunCheck st s
  | .disable => rxRunDisable st s
  | .enable => rxRunEnable st s
  | .phyDown => rxRunPhyDown st s
  | .phyUp => rxRunPhyUp st s
  | .poll => rxRunPoll st s
  | .updateRi => rxRunUpdateRi st s

/-! ## The dispatch loop -/

/-- The end of one iteration of the loop (41_event_queue.md R156, R157). -/
def State.moveRx (s : State) (st : RxState) : State :=
  s.setRx { s.rx with previousState := s.rx.currentState, currentState := st.code }

/-- The loop of `Dispatch` (41_event_queue.md R156, R158). -/
def rxChain : Nat → RxState → RxState → State → Except Fault State
  | bound, cur, next, s =>
    if next = cur then .ok s
    else
      match bound with
      | 0 => .error .chainTooLong
      | b + 1 => do
        let s0 ← rxExit cur s
        let (after, s1) ← rxEnter next s0
        rxChain b next after (s1.moveRx next)

/-- The Rx state registers hold no reserved encoding (30_encoding.md R92, 60_exceptions.md R325, 93 I20): the current
state. -/
def rxCurrent (s : State) : Except Fault RxState :=
  match rxStateOf s.rx.currentState with
  | some st => .ok st
  | none => .error .reservedState

/-- `Dispatch(e)` on an Rx (41_event_queue.md R156). -/
def rxDispatch (e : RxEvent) (s : State) : Except Fault State := do
  let s := s.updatePhyRx e
  let cur ← rxCurrent s
  if (rxStateOf s.rx.previousState).isNone then .error .reservedState
  else
    let (next, s1) ← rxRun e cur s
    rxChain chainBound cur next s1

/-! ## The meanings of the Rx event rows -/

/-- `RX_EVENT.AUTHENTICATE` (44_rx_events.md R251). -/
def execRxAuthenticate (s : State) : Host.Outcome State Fault Refusal := eventFrame .rx (rxDispatch .authenticate) s

/-- `RX_EVENT.CHECK` (44_rx_events.md R252). -/
def execRxCheck (s : State) : Host.Outcome State Fault Refusal := eventFrame .rx (rxDispatch .check) s

/-- `RX_EVENT.DISABLE` (44_rx_events.md R253). -/
def execRxDisable (s : State) : Host.Outcome State Fault Refusal := eventFrame .rx (rxDispatch .disable) s

/-- `RX_EVENT.ENABLE` (44_rx_events.md R254). -/
def execRxEnable (s : State) : Host.Outcome State Fault Refusal := eventFrame .rx (rxDispatch .enable) s

/-- `RX_EVENT.PHYDOWN` (44_rx_events.md R255). -/
def execRxPhydown (s : State) : Host.Outcome State Fault Refusal := eventFrame .rx (rxDispatch .phyDown) s

/-- `RX_EVENT.PHYUP` (44_rx_events.md R256). -/
def execRxPhyup (s : State) : Host.Outcome State Fault Refusal := eventFrame .rx (rxDispatch .phyUp) s

/-- `RX_EVENT.POLL` (44_rx_events.md R257). -/
def execRxPoll (s : State) : Host.Outcome State Fault Refusal := eventFrame .rx (rxDispatch .poll) s

/-- `RX_EVENT.UPDATE_RI` (44_rx_events.md R258). -/
def execRxUpdateRi (s : State) : Host.Outcome State Fault Refusal := eventFrame .rx (rxDispatch .updateRi) s

end Sys2Proof.Machine
end

