-- ==== Sys2Proof/Machine/TxEvents.lean ====
section
/-! DEFINITION. The transmitter's events, entry and exit actions (42_tx_events.md) and its dispatch loop
(41_event_queue.md R156). A run that stays returns the state it was given. -/

namespace Sys2Proof.Machine

/-! ## Entry and exit actions -/

/-- Entry of Tx `DISABLED` (42_tx_events.md R181). -/
def txEnterDisabled (s : State) : State :=
  let s := (((s.stopTimer.issue (.cipherDisableEncryption allStreams)).issue .cipherDisable).issue .portDisable)
  s.setTx { s.tx with stats := .zero, an := 0#64, isRepeater := false }

/-- Exit of Tx `DISABLED`, the enable sequence (42_tx_events.md R182). -/
def txExitDisabled (s : State) : State :=
  let s := (s.issue (.cipherSetLinkStateCheck false)).issue (.cipherSetRiUpdate false)
  let s := (s.cipherSetLinkFailCallback (.tx .linkDown)).cipherSetRiUpdateCallback (.tx .check)
  ((s.issue .cipherEnable).portSetAuthCallback (.tx .authenticate)).issue .portEnable

/-- Entry of Tx `UNAUTHENTICATED` (42_tx_events.md R194). -/
def txEnterUnauthenticated (s : State) : State :=
  ((s.setCheckLinkState false).issue (.cipherDisableEncryption allStreams)).setAn 0#64

/-- Entry of Tx `PHYDOWN` (42_tx_events.md R195). -/
def txEnterPhyDown (s : State) : State :=
  ((s.issue (.cipherDisableEncryption allStreams)).issue .cipherDisable).setAn 0#64

/-- `Enter(s)`: the entry action of a state, with the next state it leaves chosen: the state itself where the action
writes no `next` (42_tx_events.md R181 to R197). -/
def txEnter (st : TxState) (s : State) : Except Fault (TxState × State) :=
  match st with
  | .disabled => .ok (.disabled, txEnterDisabled s)
  | .determineRxCapable => .ok (determineRxCapable s)
  | .exchangeKsvs => exchangeKsvs s
  | .computations => .ok (.computations, startComputations s)
  | .validateRx => .ok (.validateRx, s.startTimer s.params.literals.tValidateRx)
  | .authenticated => (enterAuthenticated s).map fun t => (.authenticated, t)
  | .linkIntegrityCheck => linkIntegrityCheck s
  | .testForRepeater => testForRepeater s
  | .waitForReady => .ok (.waitForReady, s.startTimer s.params.literals.tWaitReady)
  | .readKsvList => validateKsvList s
  | .unauthenticated => .ok (.unauthenticated, txEnterUnauthenticated s)
  | .phyDown => .ok (.phyDown, txEnterPhyDown s)

/-- `Exit(s)` (42_tx_events.md R182, R187, R192, R196, R197). -/
def txExit (st : TxState) (s : State) : State :=
  match st with
  | .disabled => txExitDisabled s
  | .validateRx => s.stopTimer
  | .waitForReady => s.stopTimer
  | .phyDown => s.issue .cipherEnable
  | .determineRxCapable | .exchangeKsvs | .computations | .authenticated | .linkIntegrityCheck | .testForRepeater
  | .readKsvList | .unauthenticated => s

/-! ## The runs -/

/-- Run of `AUTHENTICATE` (42_tx_events.md R171). -/
def txRunAuthenticate (st : TxState) (s : State) : Except Fault (TxState × State) :=
  match st with
  | .unauthenticated | .computations | .validateRx | .waitForReady | .authenticated => .ok (.determineRxCapable, s)
  | .disabled | .phyDown | .determineRxCapable | .exchangeKsvs | .linkIntegrityCheck | .testForRepeater
  | .readKsvList => .ok (st, s)

/-- Run of `CHECK` (42_tx_events.md R172). -/
def txRunCheck (st : TxState) (s : State) : Except Fault (TxState × State) :=
  match st with
  | .authenticated => .ok (.linkIntegrityCheck, s)
  | .disabled | .determineRxCapable | .exchangeKsvs | .computations | .validateRx | .linkIntegrityCheck
  | .testForRepeater | .waitForReady | .readKsvList | .unauthenticated | .phyDown => .ok (st, s)

/-- Run of `DISABLE` (42_tx_events.md R173, R198). -/
def txRunDisable (st : TxState) (s : State) : Except Fault (TxState × State) :=
  match st with
  | .disabled | .testForRepeater => .ok (st, s)
  | .determineRxCapable | .exchangeKsvs | .computations | .validateRx | .authenticated | .linkIntegrityCheck
  | .waitForReady | .readKsvList | .unauthenticated | .phyDown => .ok (.disabled, s)

/-- Run of `ENABLE` (42_tx_events.md R174). -/
def txRunEnable (st : TxState) (s : State) : Except Fault (TxState × State) :=
  match st with
  | .disabled => .ok (if s.phyUp then .unauthenticated else .phyDown, s)
  | .determineRxCapable | .exchangeKsvs | .computations | .validateRx | .authenticated | .linkIntegrityCheck
  | .testForRepeater | .waitForReady | .readKsvList | .unauthenticated | .phyDown => .ok (st, s)

/-- Run of `LINKDOWN` (42_tx_events.md R175). -/
def txRunLinkDown (st : TxState) (s : State) : Except Fault (TxState × State) :=
  match st with
  | .authenticated => .ok (.unauthenticated, s)
  | .disabled | .determineRxCapable | .exchangeKsvs | .computations | .validateRx | .linkIntegrityCheck
  | .testForRepeater | .waitForReady | .readKsvList | .unauthenticated | .phyDown => .ok (st, s)

/-- Run of `PHYDOWN` (42_tx_events.md R176, R198). -/
def txRunPhyDown (st : TxState) (s : State) : Except Fault (TxState × State) :=
  match st with
  | .disabled | .phyDown | .testForRepeater => .ok (st, s)
  | .determineRxCapable | .exchangeKsvs | .computations | .validateRx | .authenticated | .linkIntegrityCheck
  | .waitForReady | .readKsvList | .unauthenticated => .ok (.phyDown, s)

/-- Run of `PHYUP` (42_tx_events.md R177): the re-post is for the next drain (41_event_queue.md R154). -/
def txRunPhyUp (st : TxState) (s : State) : Except Fault (TxState × State) :=
  match st with
  | .phyDown => .ok (.unauthenticated, if s.tx.encryptionMap = 0#64 then s else s.post (.tx .authenticate))
  | .disabled | .determineRxCapable | .exchangeKsvs | .computations | .validateRx | .authenticated
  | .linkIntegrityCheck | .testForRepeater | .waitForReady | .readKsvList | .unauthenticated => .ok (st, s)

/-- Run of `POLL` (42_tx_events.md R178). -/
def txRunPoll (st : TxState) (s : State) : Except Fault (TxState × State) :=
  match st with
  | .computations => .ok (pollForComputations s)
  | .waitForReady => .ok (if s.params.wfrPollOnPoll then readinessCheck false s else (.waitForReady, s))
  | .disabled | .determineRxCapable | .exchangeKsvs | .validateRx | .authenticated | .linkIntegrityCheck
  | .testForRepeater | .readKsvList | .unauthenticated | .phyDown => .ok (st, s)

/-- Run of `TIMEOUT` (42_tx_events.md R179). -/
def txRunTimeout (st : TxState) (s : State) : Except Fault (TxState × State) :=
  match st with
  | .validateRx => validateRx s
  | .waitForReady => .ok (readinessCheck true s)
  | .disabled | .determineRxCapable | .exchangeKsvs | .computations | .authenticated | .linkIntegrityCheck
  | .testForRepeater | .readKsvList | .unauthenticated | .phyDown => .ok (st, s)

/-- `Run(CurrentState, e)` (42_tx_events.md R180). -/
def txRun (e : TxEvent) (st : TxState) (s : State) : Except Fault (TxState × State) :=
  match e with
  | .authenticate => txRunAuthenticate st s
  | .check => txRunCheck st s
  | .disable => txRunDisable st s
  | .enable => txRunEnable st s
  | .linkDown => txRunLinkDown st s
  | .phyDown => txRunPhyDown st s
  | .phyUp => txRunPhyUp st s
  | .poll => txRunPoll st s
  | .timeout => txRunTimeout st s

/-! ## The dispatch loop -/

/-- The end of one iteration of the loop: `PreviousState <- CurrentState`, `CurrentState <- s` (41_event_queue.md R156,
R157). -/
def State.moveTx (s : State) (st : TxState) : State :=
  s.setTx { s.tx with previousState := s.tx.currentState, currentState := st.code }

/-- The loop of `Dispatch` from state `cur`, to leave for `next`: exit, enter, move, until the entry action chooses its
own state. `bound` entry actions at most (41_event_queue.md R156, R158). -/
def txChain : Nat → TxState → TxState → State → Except Fault State
  | bound, cur, next, s =>
    if next = cur then .ok s
    else
      match bound with
      | 0 => .error .chainTooLong
      | b + 1 => do
        let (after, s1) ← txEnter next (txExit cur s)
        txChain b next after (s1.moveTx next)

/-- The Tx state registers hold no reserved encoding (30_encoding.md R91, 60_exceptions.md R325, 93 I20): the current
state. -/
def txCurrent (s : State) : Except Fault TxState :=
  match txStateOf s.tx.currentState with
  | some st => .ok st
  | none => .error .reservedState

/-- `Dispatch(e)` on a Tx (41_event_queue.md R156). -/
def txDispatch (e : TxEvent) (s : State) : Except Fault State := do
  let s := s.updatePhyTx e
  let cur ← txCurrent s
  if (txStateOf s.tx.previousState).isNone then .error .reservedState
  else
    let (next, s1) ← txRun e cur s
    txChain chainBound cur next s1

/-! ## The meanings of the Tx event rows -/

/-- `TX_EVENT.AUTHENTICATE` (42_tx_events.md R171). -/
def execTxAuthenticate (s : State) : Host.Outcome State Fault Refusal := eventFrame .tx (txDispatch .authenticate) s

/-- `TX_EVENT.CHECK` (42_tx_events.md R172). -/
def execTxCheck (s : State) : Host.Outcome State Fault Refusal := eventFrame .tx (txDispatch .check) s

/-- `TX_EVENT.DISABLE` (42_tx_events.md R173). -/
def execTxDisable (s : State) : Host.Outcome State Fault Refusal := eventFrame .tx (txDispatch .disable) s

/-- `TX_EVENT.ENABLE` (42_tx_events.md R174). -/
def execTxEnable (s : State) : Host.Outcome State Fault Refusal := eventFrame .tx (txDispatch .enable) s

/-- `TX_EVENT.LINKDOWN` (42_tx_events.md R175). -/
def execTxLinkdown (s : State) : Host.Outcome State Fault Refusal := eventFrame .tx (txDispatch .linkDown) s

/-- `TX_EVENT.PHYDOWN` (42_tx_events.md R176). -/
def execTxPhydown (s : State) : Host.Outcome State Fault Refusal := eventFrame .tx (txDispatch .phyDown) s

/-- `TX_EVENT.PHYUP` (42_tx_events.md R177). -/
def execTxPhyup (s : State) : Host.Outcome State Fault Refusal := eventFrame .tx (txDispatch .phyUp) s

/-- `TX_EVENT.POLL` (42_tx_events.md R178). -/
def execTxPoll (s : State) : Host.Outcome State Fault Refusal := eventFrame .tx (txDispatch .poll) s

/-- `TX_EVENT.TIMEOUT` (42_tx_events.md R179). -/
def execTxTimeout (s : State) : Host.Outcome State Fault Refusal := eventFrame .tx (txDispatch .timeout) s

end Sys2Proof.Machine
end

