-- ==== Sys2Proof/Machine/Commands.lean ====
section
/-! DEFINITION. The drain (41_event_queue.md R153) and the 17 host commands (40_commands.md). -/

namespace Sys2Proof.Machine

/-! ## The drain -/

/-- Dispatch the set bits of a Tx snapshot in the order of the list, with an interruption point before each dispatch
(41_event_queue.md R153, R155). -/
def txDrain (snap : Half) : List TxEvent → State → Except Fault State
  | [], s => .ok s
  | e :: later, s =>
    if snap &&& e.mask = 0#16 then txDrain snap later s
    else do
      let s1 ← txDispatch e s.arrive
      txDrain snap later s1

/-- Dispatch the set bits of an Rx snapshot in the order of the list (41_event_queue.md R153, R155). -/
def rxDrain (snap : Half) : List RxEvent → State → Except Fault State
  | [], s => .ok s
  | e :: later, s =>
    if snap &&& e.mask = 0#16 then rxDrain snap later s
    else do
      let s1 ← rxDispatch e s.arrive
      rxDrain snap later s1

/-- Dispatch a whole snapshot; a reserved bit in it faults (41_event_queue.md R153, 30_encoding.md R95). -/
def dispatchSnapshot (snap : Half) (s : State) : Except Fault State :=
  if snap &&& reservedEventMask s.params.direction = 0#16 then
    match s.params.direction with
    | .tx => txDrain snap txEventOrder s
    | .rx => rxDrain snap rxEventOrder s
  else .error .reservedEvent

/-- `Drain()` (41_event_queue.md R153): the snapshot-and-clear is one indivisible exchange. -/
def drain (s : State) : Except Fault State :=
  let s := s.arrive
  dispatchSnapshot s.pendingEvents (s.setPending 0#16)

/-! ## Bodies that another command uses too -/

/-- `Body(ENABLE)` (40_commands.md R124). -/
def enableBody (s : State) : Except Fault State := drain (s.postFor .enable .enable)

/-- `Body(DISABLE)` (40_commands.md R125). -/
def disableBody (s : State) : Except Fault State := drain (s.postFor .disable .disable)

/-- `ResetRegisters()` for the registers of the instance's direction (70_reset_and_hazards.md R350). `Ready` is set
last, by `CFGINIT` itself. -/
def resetRegisters (s : State) : State :=
  let s := match s.params.direction with
    | .tx => s.setTx .reset
    | .rx => s.setRx .reset
  (s.setPending 0#16).setPhyUp s.params.phyUpAtReset

/-- `EnterDisabledActions()` (70_reset_and_hazards.md R351). -/
def enterDisabledActions (s : State) : State :=
  match s.params.direction with
  | .tx => txEnterDisabled s
  | .rx => rxEnterDisabled s

/-- The registers `INFO` reports (40_commands.md R136). -/
def infoReport (s : State) : List Nat :=
  match s.params.direction with
  | .tx => [s.tx.currentState.toNat, s.tx.previousState.toNat, s.tx.stats.authFailed, s.tx.stats.authPassed,
            s.tx.stats.readFailures, s.tx.stats.linkCheckPassed, s.tx.stats.linkCheckFailed]
  | .rx => [s.rx.currentState.toNat, s.rx.previousState.toNat, s.rx.riUpdates]

/-- The Tx states of an attempt (40_commands.md R129). -/
def TxState.inProgress : TxState → Bool
  | .determineRxCapable | .exchangeKsvs | .computations | .validateRx | .testForRepeater | .waitForReady
  | .readKsvList => true
  | .disabled | .authenticated | .linkIntegrityCheck | .unauthenticated | .phyDown => false

/-- The Rx state of an attempt (40_commands.md R129). -/
def RxState.inProgress : RxState → Bool
  | .computations => true
  | .disabled | .unauthenticated | .authenticated | .linkIntegrityFailed | .phyDown => false

/-- The authenticated Tx states (40_commands.md R130). -/
def TxState.isAuth : TxState → Bool
  | .authenticated | .linkIntegrityCheck => true
  | .disabled | .determineRxCapable | .exchangeKsvs | .computations | .validateRx | .testForRepeater | .waitForReady
  | .readKsvList | .unauthenticated | .phyDown => false

/-- The authenticated Rx state (40_commands.md R130). -/
def RxState.isAuth : RxState → Bool
  | .authenticated => true
  | .disabled | .unauthenticated | .computations | .linkIntegrityFailed | .phyDown => false

/-! ## Bodies of single commands -/

/-- What `Body(CFGINIT)` does (40_commands.md R121): the reset, an interruption point at which a callback of an earlier
life can still post (41_event_queue.md R155, entry 12), the entry actions of `DISABLED`; afterwards no callback is
registered (70_reset_and_hazards.md R352, entry 11). -/
def initialise (s : State) : State :=
  ((enterDisabledActions (resetRegisters s).arrive).setCallbacks .none).setReady true

/-- `Body(CFGINIT)` (40_commands.md R121). -/
def cfginitBody (s : State) : Except Fault (Result × State) := .ok (.success, initialise s)

/-- `Body(POLL)` (40_commands.md R122). -/
def pollBody (s : State) : Except Fault (Result × State) := succeed (drain (s.postFor .poll .poll))

/-- `Body(RESET)` (40_commands.md R123). -/
def resetBody (s : State) : Except Fault (Result × State) := do
  let s1 ← disableBody s
  succeed (enableBody s1)

/-- `Body(SETPHY u)` (40_commands.md R126). -/
def setphyBody (u : Bool) (s : State) : Except Fault (Result × State) :=
  succeed (drain (if u then s.postFor .phyUp .phyUp else s.postFor .phyDown .phyDown))

/-- `Body(AUTH)` (40_commands.md R128). -/
def authBody (s : State) : Except Fault (Result × State) := succeed (drain (s.postFor .authenticate .authenticate))

/-- `Body(ISINPROG)` (40_commands.md R129). -/
def isinprogBody (s : State) : Except Fault (Result × State) :=
  match s.params.direction with
  | .tx => (txCurrent s).map fun st => (.flag st.inProgress, s)
  | .rx => (rxCurrent s).map fun st => (.flag st.inProgress, s)

/-- `Body(ISAUTH)` (40_commands.md R130). -/
def isauthBody (s : State) : Except Fault (Result × State) :=
  match s.params.direction with
  | .tx => (txCurrent s).map fun st => (.flag st.isAuth, s)
  | .rx => (rxCurrent s).map fun st => (.flag st.isAuth, s)

/-- `Body(GETENC)` (40_commands.md R131). -/
def getencBody (s : State) : Except Fault (Result × State) :=
  match s.params.direction with
  | .tx => .ok (.map s.tx.encryptionMap, s)
  | .rx =>
    let r := s.cipherGetEncryption
    .ok (.map r.1, r.2)

/-- `Body(ENENC map)` (40_commands.md R132); on an Rx always `FAILURE` (60_exceptions.md R321). -/
def enencBody (map : Wide) (s : State) : Except Fault (Result × State) :=
  match s.params.direction with
  | .tx => do
    let s1 := s.setTx { s.tx with encryptionMap := s.tx.encryptionMap ||| map }
    let st ← txCurrent s1
    succeed (if st = .authenticated then applyEncryption s1 else .ok s1)
  | .rx => .ok (.failure, s)

/-- `Body(DISENC map)` (40_commands.md R133); on an Rx always `FAILURE` (60_exceptions.md R321). -/
def disencBody (map : Wide) (s : State) : Except Fault (Result × State) :=
  match s.params.direction with
  | .tx =>
    .ok (.success,
      (s.setTx { s.tx with encryptionMap := s.tx.encryptionMap &&& ~~~map }).issue (.cipherDisableEncryption map))
  | .rx => .ok (.failure, s)

/-! ## The meanings of the command rows -/

/-- `CFGINIT` (40_commands.md R121). -/
def execCfginit (s : State) : Host.Outcome State Fault Refusal := initFrame cfginitBody s

/-- `POLL` (40_commands.md R122). -/
def execPoll (s : State) : Host.Outcome State Fault Refusal := commandFrame pollBody s

/-- `RESET` (40_commands.md R123). -/
def execReset (s : State) : Host.Outcome State Fault Refusal := commandFrame resetBody s

/-- `ENABLE` (40_commands.md R124). -/
def execEnable (s : State) : Host.Outcome State Fault Refusal := commandFrame (fun s => succeed (enableBody s)) s

/-- `DISABLE` (40_commands.md R125). -/
def execDisable (s : State) : Host.Outcome State Fault Refusal := commandFrame (fun s => succeed (disableBody s)) s

/-- `SETPHY u` (40_commands.md R126). -/
def execSetphy (u : Bool) (s : State) : Host.Outcome State Fault Refusal := commandFrame (setphyBody u) s

/-- `SETLANES n` (40_commands.md R127). -/
def execSetlanes (n : Byte) (s : State) : Host.Outcome State Fault Refusal :=
  commandFrame (fun s => .ok (.success, s.issue (.cipherSetLaneCount n))) s

/-- `AUTH` (40_commands.md R128). -/
def execAuth (s : State) : Host.Outcome State Fault Refusal := commandFrame authBody s

/-- `ISINPROG` (40_commands.md R129). -/
def execIsinprog (s : State) : Host.Outcome State Fault Refusal := commandFrame isinprogBody s

/-- `ISAUTH` (40_commands.md R130). -/
def execIsauth (s : State) : Host.Outcome State Fault Refusal := commandFrame isauthBody s

/-- `GETENC` (40_commands.md R131). -/
def execGetenc (s : State) : Host.Outcome State Fault Refusal := commandFrame getencBody s

/-- `ENENC map` (40_commands.md R132). -/
def execEnenc (map : Wide) (s : State) : Host.Outcome State Fault Refusal := commandFrame (enencBody map) s

/-- `DISENC map` (40_commands.md R133). -/
def execDisenc (map : Wide) (s : State) : Host.Outcome State Fault Refusal := commandFrame (disencBody map) s

/-- `SETKEYSEL n` (40_commands.md R134). -/
def execSetkeysel (n : Byte) (s : State) : Host.Outcome State Fault Refusal :=
  commandFrame (fun s => .ok (.success, s.issue (.cipherSetKeySelect n))) s

/-- `TIMEOUT` (40_commands.md R135). -/
def execTimeout (s : State) : Host.Outcome State Fault Refusal :=
  commandFrame (fun s => .ok (.success, s.postTimeout)) s

/-- `INFO` (40_commands.md R136): a text of the reported registers, whose wording is free (93 I24, entry 23). -/
def execInfo (s : State) : Host.Outcome State Fault Refusal :=
  commandFrame (fun s => .ok (.text (Config.infoText s.draws (infoReport s)), s.takeAnswer s.answers)) s

/-- `GETVER` (40_commands.md R137). -/
def execGetver (s : State) : Host.Outcome State Fault Refusal :=
  commandFrame (fun s => .ok (.version s.params.version, s)) s

end Sys2Proof.Machine
end

