-- ==== Sys2Proof/Machine/Dispatch.lean ====
section
/-! DEFINITION. Which meaning each instruction has. -/

namespace Sys2Proof.Machine

def exec (i : Instr) (s : State) : Host.Outcome State Fault Refusal :=
  match i with
  | .cfginit => Sys2Proof.Machine.execCfginit s
  | .poll => Sys2Proof.Machine.execPoll s
  | .reset => Sys2Proof.Machine.execReset s
  | .enable => Sys2Proof.Machine.execEnable s
  | .disable => Sys2Proof.Machine.execDisable s
  | .setphy u => Sys2Proof.Machine.execSetphy u s
  | .setlanes n => Sys2Proof.Machine.execSetlanes n s
  | .auth => Sys2Proof.Machine.execAuth s
  | .isinprog => Sys2Proof.Machine.execIsinprog s
  | .isauth => Sys2Proof.Machine.execIsauth s
  | .getenc => Sys2Proof.Machine.execGetenc s
  | .enenc map => Sys2Proof.Machine.execEnenc map s
  | .disenc map => Sys2Proof.Machine.execDisenc map s
  | .setkeysel n => Sys2Proof.Machine.execSetkeysel n s
  | .timeout => Sys2Proof.Machine.execTimeout s
  | .info => Sys2Proof.Machine.execInfo s
  | .getver => Sys2Proof.Machine.execGetver s
  | .txAuthenticate => Sys2Proof.Machine.execTxAuthenticate s
  | .txCheck => Sys2Proof.Machine.execTxCheck s
  | .txDisable => Sys2Proof.Machine.execTxDisable s
  | .txEnable => Sys2Proof.Machine.execTxEnable s
  | .txLinkdown => Sys2Proof.Machine.execTxLinkdown s
  | .txPhydown => Sys2Proof.Machine.execTxPhydown s
  | .txPhyup => Sys2Proof.Machine.execTxPhyup s
  | .txPoll => Sys2Proof.Machine.execTxPoll s
  | .txTimeout => Sys2Proof.Machine.execTxTimeout s
  | .rxAuthenticate => Sys2Proof.Machine.execRxAuthenticate s
  | .rxCheck => Sys2Proof.Machine.execRxCheck s
  | .rxDisable => Sys2Proof.Machine.execRxDisable s
  | .rxEnable => Sys2Proof.Machine.execRxEnable s
  | .rxPhydown => Sys2Proof.Machine.execRxPhydown s
  | .rxPhyup => Sys2Proof.Machine.execRxPhyup s
  | .rxPoll => Sys2Proof.Machine.execRxPoll s
  | .rxUpdateRi => Sys2Proof.Machine.execRxUpdateRi s

end Sys2Proof.Machine
end

