-- ==== Sys2Proof/Machine/Step.lean ====
section
/-! DEFINITION. One step of the instance: it takes the next thing that reaches it from outside (entry 5). -/

namespace Sys2Proof.Machine

/-- One step. With nothing to take the block does nothing (70_reset_and_hazards.md R364). An interrupt is its post
(41_event_queue.md R155). A word is decoded for the instance's direction and its instruction executed; the later
events of an event word stay next in line; a word that names no instruction is rejected. -/
def step (s : State) : Host.Outcome State Fault Refusal :=
  match s.inputs with
  | [] => .next s
  | .interrupt i :: rest => .next ((s.setInputs rest).takeInterrupt i)
  | .fetch f :: rest =>
    match decode s.params.direction f with
    | .ok i => exec i (s.setInputs ((f.remainder s.params.direction).map .fetch ++ rest))
    | .error e => rejectedWord e (s.setInputs rest)

/-- `s` with the instruction of `nbits` table bits with value `w` next in line, so that the next step runs it. -/
def State.withFetchWord (s : State) (nbits w : Nat) : State :=
  s.setInputs (.fetch (tableFetchWord nbits w) :: s.inputs)

end Sys2Proof.Machine
end

