-- ==== Sys2Proof/Safety.lean ====
section
/-! DEFINITION. The terms claims use: resting states, the sound states of an instance, what a run leaves alone. -/

namespace Sys2Proof.Machine

/-- The resting Tx states (30_encoding.md R91, 41_event_queue.md R158). -/
def TxState.resting : TxState → Bool
  | .disabled | .computations | .validateRx | .authenticated | .waitForReady | .unauthenticated | .phyDown => true
  | .determineRxCapable | .exchangeKsvs | .linkIntegrityCheck | .testForRepeater | .readKsvList => false

/-- The Tx states in which an attempt is under way at rest (43_tx_procedures.md R224). -/
def TxState.attemptRunning : TxState → Bool
  | .computations | .validateRx | .waitForReady => true
  | .disabled | .determineRxCapable | .exchangeKsvs | .authenticated | .linkIntegrityCheck | .testForRepeater
  | .readKsvList | .unauthenticated | .phyDown => false

/-- The Tx states that wait for the one-shot timer (60_exceptions.md R334). -/
def TxState.timed : TxState → Bool
  | .validateRx | .waitForReady => true
  | .disabled | .determineRxCapable | .exchangeKsvs | .computations | .authenticated | .linkIntegrityCheck
  | .testForRepeater | .readKsvList | .unauthenticated | .phyDown => false

/-- Every Tx counter fits `P_STAT_WIDTH` bits (10_state.md R31). -/
def TxStats.fits (t : TxStats) (width : Nat) : Prop :=
  t.authFailed < 2 ^ width ∧ t.authPassed < 2 ^ width ∧ t.readFailures < 2 ^ width ∧ t.linkCheckPassed < 2 ^ width ∧
    t.linkCheckFailed < 2 ^ width

/-- A Tx rests in `st`, having come from some legal state (30_encoding.md R91, 41_event_queue.md R158). -/
def State.txRests (s : State) (st : TxState) : Prop :=
  s.tx.currentState = st.code ∧ st.resting = true ∧ (txStateOf s.tx.previousState).isSome = true

/-- An Rx rests in `st` (30_encoding.md R92: every Rx state is resting). -/
def State.rxRests (s : State) (st : RxState) : Prop :=
  s.rx.currentState = st.code ∧ (rxStateOf s.rx.previousState).isSome = true

/-- No reserved event bit is pending (30_encoding.md R95). -/
def State.pendingLegal (s : State) : Prop := s.pendingEvents &&& reservedEventMask s.params.direction = 0#16

/-- A registered callback posts the event of 60_exceptions.md R326 for the instance's direction. -/
def State.callbacksSound (s : State) : Prop :=
  match s.params.direction with
  | .tx => (∀ e, s.callbacks.linkFail = some e → e = .tx .linkDown) ∧
      (∀ e, s.callbacks.riUpdate = some e → e = .tx .check) ∧
      (∀ e, s.callbacks.portAuth = some e → e = .tx .authenticate)
  | .rx => (∀ e, s.callbacks.linkFail = some e → e = .rx .check) ∧
      (∀ e, s.callbacks.riUpdate = some e → e = .rx .updateRi) ∧
      (∀ e, s.callbacks.portAuth = some e → e = .rx .authenticate)

/-- What every command and every interrupt keeps of a Tx: `AN_FALLBACK` is not the zero it replaces
(43_tx_procedures.md R213), it rests in a legal state, its counters fit, `An` is non-zero exactly during an attempt
(R224), and, where the host supplied `TimerStop`, the timer is armed only while the machine waits for it
(60_exceptions.md R334). -/
def State.txSound (s : State) : Prop :=
  s.params.literals.anFallback ≠ 0#64 ∧ ∃ st : TxState, s.txRests st ∧ s.tx.stats.fits s.params.statWidth ∧
    (s.tx.an ≠ 0#64 ↔ st.attemptRunning = true) ∧
    (s.params.hooks.timerStop = true → s.timer ≠ none → st.timed = true)

/-- What every command and every interrupt keeps of an Rx: legal states, its counter fits, no timer (44_rx_events.md
R265). -/
def State.rxSound (s : State) : Prop :=
  (∃ st : RxState, s.rxRests st) ∧ s.rx.riUpdates < 2 ^ s.params.statWidth ∧ s.timer = none

/-- The sound states of an instance: the invariant of its steps. -/
def State.sound (s : State) : Prop :=
  s.pendingLegal ∧ s.callbacksSound ∧
    match s.params.direction with
    | .tx => s.txSound
    | .rx => s.rxSound

/-- `t` is `s` after some requests were issued and answered: nothing but the model's own request log, answers and answer
counter differs, and the log has only grown. -/
def State.asks (s t : State) : Prop :=
  ∃ (a : Answers) (d : Nat) (rs : List Request), t = { s with answers := a, draws := d, requests := s.requests ++ rs }

/-- `t` is `s` after work of the transmitter's procedures, short of a change of state: besides requests and answers only
`An`, `IsRepeater`, `RepeaterInfo` and the counters may differ, and counters that fit still fit. -/
def State.txWorks (s t : State) : Prop :=
  ∃ (a : Answers) (d : Nat) (rs : List Request) (r : TxRegs),
    t = { s with answers := a, draws := d, requests := s.requests ++ rs, tx := r } ∧
      r.currentState = s.tx.currentState ∧ r.previousState = s.tx.previousState ∧
      r.encryptionMap = s.tx.encryptionMap ∧
      (s.tx.stats.fits s.params.statWidth → r.stats.fits s.params.statWidth)

/-- A Tx is in `st`, having come from some legal state (30_encoding.md R91, 10_state.md R24). -/
def State.txIn (s : State) (st : TxState) : Prop :=
  s.params.direction = .tx ∧ s.tx.currentState = st.code ∧ (txStateOf s.tx.previousState).isSome = true

/-- An Rx is in `st`, having come from some legal state (30_encoding.md R92, 10_state.md R24). -/
def State.rxIn (s : State) (st : RxState) : Prop :=
  s.params.direction = .rx ∧ s.rx.currentState = st.code ∧ (rxStateOf s.rx.previousState).isSome = true

/-- A host command gets past the frame of 40_commands.md R120. -/
def State.accepts (s : State) : Prop := s.ready = true ∧ Params.directionPresent s.params = true

/-- No interrupt falls inside the commands to come. -/
def State.undisturbed (s : State) : Prop := s.arrivals = []

/-- A host command issued now is let through, and its drain finds no event but the command's own. -/
def State.calm (s : State) : Prop := s.accepts ∧ s.undisturbed ∧ s.pendingEvents = 0#16

/-- No busy delay that is still to come is listed as never returning (60_exceptions.md R340, entry 28). -/
def State.delaysReturn (s : State) : Prop := ∀ b ∈ s.answers.delays, b = true

/-- Two states differ in nothing but the events pending. -/
def State.samePendingApart (s t : State) : Prop := t = s.setPending t.pendingEvents

/-! ## The rows of the events -/

/-- The instruction of a Tx event (30_encoding.md R93). -/
def TxEvent.row : TxEvent → Instr
  | .authenticate => .txAuthenticate
  | .check => .txCheck
  | .disable => .txDisable
  | .enable => .txEnable
  | .linkDown => .txLinkdown
  | .phyDown => .txPhydown
  | .phyUp => .txPhyup
  | .poll => .txPoll
  | .timeout => .txTimeout

/-- The instruction of an Rx event (30_encoding.md R94). -/
def RxEvent.row : RxEvent → Instr
  | .authenticate => .rxAuthenticate
  | .check => .rxCheck
  | .disable => .rxDisable
  | .enable => .rxEnable
  | .phyDown => .rxPhydown
  | .phyUp => .rxPhyup
  | .poll => .rxPoll
  | .updateRi => .rxUpdateRi

/-- The pairs the table of 42_tx_events.md R180 gives a next state or a procedure. -/
def txHandles (p : Params) (e : TxEvent) (st : TxState) : Bool :=
  match e with
  | .authenticate => st ∈ [.computations, .validateRx, .authenticated, .waitForReady, .unauthenticated]
  | .check | .linkDown => st == .authenticated
  | .disable => st ∉ [.disabled, .testForRepeater]
  | .enable => st == .disabled
  | .phyDown => st ∉ [.disabled, .phyDown, .testForRepeater]
  | .phyUp => st == .phyDown
  | .poll => st == .computations || (st == .waitForReady && p.wfrPollOnPoll)
  | .timeout => st ∈ [.validateRx, .waitForReady]

/-- The pairs the table of 44_rx_events.md R259 gives a next state or a procedure. -/
def rxHandles (p : Params) (e : RxEvent) (st : RxState) : Bool :=
  match e with
  | .authenticate => st ∈ [.unauthenticated, .computations, .authenticated, .linkIntegrityFailed]
  | .check => st ∈ [.authenticated, .linkIntegrityFailed]
  | .disable => st != .disabled
  | .enable => st == .disabled
  | .phyDown => st ∉ [.disabled, .phyDown]
  | .phyUp => st == .phyDown
  | .poll => st == .computations
  | .updateRi => st == .authenticated && p.protocol == .hdmi

/-! ## The requests of the actions, in order -/

/-- `Platform.TimerStop()`, if the hook is there (20_memory.md R70). -/
def stopRequests (p : Params) : List Request := if p.hooks.timerStop then [.timerStop] else []

/-- The timer after `Platform.TimerStop()` (20_memory.md R69, R70). -/
def stoppedTimer (p : Params) (t : Option Nat) : Option Nat := if p.hooks.timerStop then none else t

/-- `Platform.TimerStart(ms)`, if the hook is there (20_memory.md R70). -/
def startRequests (p : Params) (ms : Nat) : List Request := if p.hooks.timerStart then [.timerStart ms] else []

/-- The timer after `Platform.TimerStart(ms)` (20_memory.md R69, R70; on one already armed, entry 39). -/
def startedTimer (p : Params) (ms : Nat) (t : Option Nat) : Option Nat :=
  if p.hooks.timerStart then some ms else t

/-- `Platform.TimerBusyDelay(T_SETTLE)`, if the hook is there (20_memory.md R70). -/
def delayRequests (p : Params) : List Request := if p.hooks.timerBusyDelay then [.timerBusyDelay p.literals.tSettle]
  else []

/-- `ApplyEncryption()` (43_tx_procedures.md R221). -/
def settleRequests (p : Params) (map : Wide) : List Request :=
  if map = 0#64 then [] else delayRequests p ++ [.cipherEnableEncryption map] ++ delayRequests p

/-- How many answers `ApplyEncryption()` takes: one for each busy delay. -/
def settleCount (p : Params) (map : Wide) : Nat := if map ≠ 0#64 ∧ p.hooks.timerBusyDelay = true then 2 else 0

/-- `SetCheckLinkState(b)` (43_tx_procedures.md R222). -/
def armRequests (b : Bool) : List Request := [.cipherSetRiUpdate b, .cipherSetLinkStateCheck b]

/-- Disarm link checking and disable all encryption: the entry of Tx `UNAUTHENTICATED` and the start of
`DetermineRxCapable()` (42_tx_events.md R194, 43_tx_procedures.md R210). -/
def disarmRequests : List Request := armRequests false ++ [.cipherDisableEncryption allStreams]

/-- The entry of Tx `DISABLED` (42_tx_events.md R181). -/
def txDisabledRequests (p : Params) : List Request :=
  stopRequests p ++ [.cipherDisableEncryption allStreams, .cipherDisable, .portDisable]

/-- The exit of Tx `DISABLED` (42_tx_events.md R182). -/
def txEnableRequests : List Request :=
  [.cipherSetLinkStateCheck false, .cipherSetRiUpdate false, .cipherSetLinkFailCallback (.tx .linkDown),
   .cipherSetRiUpdateCallback (.tx .check), .cipherEnable, .portSetAuthCallback (.tx .authenticate), .portEnable]

/-- The callbacks of a Tx once enabled (42_tx_events.md R182, 60_exceptions.md R326). -/
def txCallbacks : Callbacks :=
  { linkFail := some (.tx .linkDown), riUpdate := some (.tx .check), portAuth := some (.tx .authenticate) }

/-- The callbacks of an Rx once enabled (44_rx_events.md R261, 60_exceptions.md R326). -/
def rxCallbacks : Callbacks :=
  { linkFail := some (.rx .check), riUpdate := some (.rx .updateRi), portAuth := some (.rx .authenticate) }

/-- The requests of a Tx state's exit action (42_tx_events.md R197). -/
def txExitRequests (p : Params) : TxState → List Request
  | .disabled => txEnableRequests
  | .validateRx | .waitForReady => stopRequests p
  | .phyDown => [.cipherEnable]
  | .determineRxCapable | .exchangeKsvs | .computations | .authenticated | .linkIntegrityCheck | .testForRepeater
  | .readKsvList | .unauthenticated => []

/-- The timer after a Tx state's exit action (42_tx_events.md R197). -/
def txExitTimer (p : Params) (st : TxState) (t : Option Nat) : Option Nat :=
  if st.timed then stoppedTimer p t else t

/-- `SetB` for `An` and the repeater bit, then `DoRequest(Block)` (30_encoding.md R101). The split is PRESUMED: entry
14. -/
def computeRequests (an : Wide) (rep : Bool) : List Request :=
  [.cipherSetB (bRegX an) (bRegY an) (bRegZ an rep), .cipherDoRequest .block]

/-- The requests of `ExchangeKsvs()` from the `BKSV` read on, with every transfer complete, the cipher answering "not
complete" `n` times, and of the `StartComputations()` that follows (43_tx_procedures.md R211, R213, R214). -/
def exchangeRequests (p : Params) (bksv an k : Wide) (rep : Bool) (n : Nat) : List Request :=
  [.portRead p.portMap.bksv p.literals.ksvBytes] ++ (if p.hooks.isKsvRevoked then [.isKsvRevoked bksv] else []) ++
  [.portIsRepeater, .cipherDoRequest .rng] ++ List.replicate (n + 1) .cipherIsRequestComplete ++
  [.cipherGetMi, .portWrite p.portMap.an (leBytes p.literals.anBytes an), .cipherGetLocalKsv,
   .portWrite p.portMap.aksv (leBytes p.literals.ksvBytes k), .cipherSetRemoteKsv bksv] ++ computeRequests an rep

/-- The answers a capable receiver and its collaborators give to such an exchange, ahead of `a`: `BKSV` bytes `b`, the
local KSV `k`, the RNG's `m`, the repeater flag (43_tx_procedures.md R210, R211, R213). -/
def exchangeAnswers (p : Params) (b : List Byte) (k m : Wide) (rep : Bool) (n : Nat) (a : Answers) : Answers :=
  { a with
    capable := true :: a.capable, reads := { count := p.literals.ksvBytes, bytes := b } :: a.reads
    revoked := if p.hooks.isKsvRevoked then false :: a.revoked else a.revoked
    repeater := rep :: a.repeater, complete := List.replicate n false ++ true :: a.complete, mi := m :: a.mi
    writes := (p.literals.anBytes : Int) :: (p.literals.ksvBytes : Int) :: a.writes, localKsv := k :: a.localKsv }

/-- How many answers such an exchange takes. -/
def exchangeDraws (p : Params) (n : Nat) : Nat := 8 + n + (if p.hooks.isKsvRevoked then 1 else 0)

/-! ## Tries of a comparison and attempts at a KSV list -/

/-- A read of `RO`, `n` bytes, that makes a try against `v` fail: a short read, or a complete one whose value differs in
some bit (45_linkcheck.md R291, R292, R299). -/
def tryFails (n : Nat) (r : ReadAnswer) (v : Half) : Prop :=
  r.count < n ∨ (r.count = n ∧ r.bytes.length = n ∧ unLE 16 r.bytes ≠ v)

/-- A read of `RO`, `n` bytes, that matches `v` (45_linkcheck.md R299). -/
def tryMatches (n : Nat) (r : ReadAnswer) (v : Half) : Prop :=
  r.count = n ∧ r.bytes.length = n ∧ unLE 16 r.bytes = v

/-- How many reads of `n` bytes are short: what `ReadFailures` counts (43_tx_procedures.md R223). -/
def shortReads (n : Nat) (l : List ReadAnswer) : Nat := (l.filter fun r => r.count < (n : Int)).length

/-- The sizes of the reads of a list of `total` bytes in chunks of at most `chunk` bytes: full chunks, then what is left
(43_tx_procedures.md R219). -/
def chunkSizes (chunk total : Nat) : List Nat :=
  List.replicate (total / chunk) chunk ++ (if total % chunk = 0 then [] else [total % chunk])

/-- The answer of a complete read of these bytes (20_memory.md R64). -/
def wholeRead (b : List Byte) : ReadAnswer := { count := b.length, bytes := b }

/-- `n` attempts at the KSV list, each of which fails, lead from `s` to `u` (43_tx_procedures.md R218). -/
def attemptsFail : Nat → State → State → Prop
  | 0, s, u => u = s
  | n + 1, s, u => ∃ t, ksvListAttempt s = .ok (false, t) ∧ attemptsFail n t u

/-- The end of a host command whose body ends in `SUCCESS` (30_encoding.md R109). -/
def ended (r : Except Fault State) : Host.Outcome State Fault Refusal :=
  match r with
  | .ok t => .next (t.setResult .success)
  | .error f => .fault f

end Sys2Proof.Machine
end

