-- ==== Sys2Proof/Certificates/Slice0/Obligations.lean ====
section
/-! DEFINITION. The statements for the provers. A statement about an event row whose event a host command posts says the
same of that command, issued with nothing else pending (`State.calm`). The literals of 00_scope.md R7 (three tries, 100 ms,
5 bytes and the like) are parameters, `s.params.literals`; `ResetStateIsSound` states their values. Where a statement
rests on a choice of the model or on what the spec itself marks as presumed, its docstring names the log entry. -/

section

open Sys2Proof Sys2Proof.Machine

/-! ## Words -/

/-- 30_encoding.md sections 3 and 4: an encoded instruction decodes to itself, for every operand and in every direction
it belongs to, and nothing of its word is left. -/
def Obligations.EncodedInstructionsDecodeBack : Prop :=
  ∀ (d : Direction) (i : Instr), i.wf d = true → decode d (encode i) = .ok i ∧ (encode i).remainder d = []

/-- 30_encoding.md sections 3 and 4, 41_event_queue.md section 2: a legal command word is the encoding of the one
instruction it decodes to; a legal event word, of one event or of several, decodes to the event of its lowest set bit.
That a word of several events is a word of its own, dispatched from the lowest up, is the model's choice (entry 6). -/
def Obligations.LegalWordsHaveOneEncoding : Prop :=
  (∀ (w : CommandWord) (i : Instr), decodeCommand w = .ok i → encode i = .command w) ∧
  (∀ (d : Direction) (w : Half) (i : Instr), decodeEvent d w = .ok i →
    i.wf d = true ∧ ∃ n, encode i = eventWord n ∧ w.getLsbD n = true ∧ ∀ m, m < n → w.getLsbD m = false)

/-- 30_encoding.md R98: exactly the illegal words decode to nothing; such a word ends with `FAILURE` and changes neither
a register nor a collaborator. -/
def Obligations.IllegalCommandWordsFail : Prop :=
  ∀ (s : State) (w : CommandWord) (rest : List Input),
    let op := (w.extractLsb' 0 8).toNat
    let illegal := op = 0 ∨ 0x12 ≤ op ∨
      (op ∈ [0x01, 0x02, 0x03, 0x04, 0x05, 0x08, 0x09, 0x0A, 0x0B, 0x0F, 0x10, 0x11] ∧ w.extractLsb' 8 64 ≠ 0#64) ∨
      (op = 0x06 ∧ w.extractLsb' 9 63 ≠ 0#63) ∨ (op ∈ [0x07, 0x0E] ∧ w.extractLsb' 16 56 ≠ 0#56)
    (illegal → s.inputs = .fetch (.command w) :: rest →
      step s = .next { s with inputs := rest, result := some .failure }) ∧
    (¬ illegal → ∃ i, decodeCommand w = .ok i ∧ i.eventDirection = none)

/-- 95_test_vectors.md V20 and P1 to P8: words written out from 30_encoding.md R93, R94, R96, R97. -/
def Obligations.SpecWordsDecode : Prop :=
  decodeCommand 0x000000000000000001#72 = .ok .cfginit ∧
  decodeCommand 0x000000000000000106#72 = .ok (.setphy true) ∧
  decodeCommand 0x000000000000000006#72 = .ok (.setphy false) ∧
  decodeCommand 0x000000000000000407#72 = .ok (.setlanes 4#8) ∧
  decodeCommand 0x00000000000000010C#72 = .ok (.enenc 1#64) ∧
  decodeCommand 0xFFFFFFFFFFFFFFFF0D#72 = .ok (.disenc 0xFFFFFFFFFFFFFFFF#64) ∧
  decodeEvent .tx 0x0020#16 = .ok .txLinkdown ∧ decodeEvent .rx 0x0020#16 = .ok .rxPhydown ∧
  decodeEvent .tx 0x0200#16 = .ok .txTimeout ∧ decodeEvent .rx 0x0100#16 = .ok .rxUpdateRi

/-! ## The step, posts, interrupts and the drain -/

/-- A step runs the instruction its word decodes to, with the later events of an event word left next in line; an
interrupt is taken; with nothing to take the block does nothing (70_reset_and_hazards.md section 4). How words and
interrupts reach the block is the model's own convention (entry 5). -/
def Obligations.StepRunsDecodedInstruction : Prop :=
  (∀ (s : State) (f : FetchWord) (rest : List Input) (i : Instr),
    s.inputs = .fetch f :: rest → decode s.params.direction f = .ok i → i.wf s.params.direction = true →
      step s = exec i { s with inputs := (f.remainder s.params.direction).map Input.fetch ++ rest }) ∧
  (∀ (s : State) (i : Interrupt) (rest : List Input), s.inputs = .interrupt i :: rest →
    step s = .next (State.takeInterrupt { s with inputs := rest } i)) ∧
  (∀ s : State, s.inputs = [] → step s = .next s)

/-- 41_event_queue.md section 1, 60_exceptions.md section 2: each source posts its own event and does nothing else; a
source not registered does nothing, whatever the others are, and so does a timer not armed; no interrupt clears a pending
event. That an expiry needs an armed timer, and disarms it, is the model's own (entry 10). -/
def Obligations.InterruptSourcesOnlyPost : Prop :=
  (∀ s : State, s.params.direction = .tx → s.callbacks = txCallbacks →
    s.takeInterrupt .portReauth = { s with pendingEvents := s.pendingEvents ||| 0x0002#16 } ∧
    s.takeInterrupt .cipherRiUpdate = { s with pendingEvents := s.pendingEvents ||| 0x0004#16 } ∧
    s.takeInterrupt .cipherLinkFail = { s with pendingEvents := s.pendingEvents ||| 0x0020#16 } ∧
    (s.accepts → s.timer ≠ none →
      s.takeInterrupt .timerExpiry = { s with pendingEvents := s.pendingEvents ||| 0x0200#16, timer := none })) ∧
  (∀ s : State, s.params.direction = .rx → s.callbacks = rxCallbacks →
    s.takeInterrupt .portReauth = { s with pendingEvents := s.pendingEvents ||| 0x0002#16 } ∧
    s.takeInterrupt .cipherLinkFail = { s with pendingEvents := s.pendingEvents ||| 0x0004#16 } ∧
    s.takeInterrupt .cipherRiUpdate = { s with pendingEvents := s.pendingEvents ||| 0x0100#16 }) ∧
  (∀ s : State, s.callbacks.portAuth = none → s.takeInterrupt .portReauth = s) ∧
  (∀ s : State, s.callbacks.riUpdate = none → s.takeInterrupt .cipherRiUpdate = s) ∧
  (∀ s : State, s.callbacks.linkFail = none → s.takeInterrupt .cipherLinkFail = s) ∧
  (∀ s : State, s.timer = none → s.takeInterrupt .timerExpiry = s) ∧
  (∀ s : State, s.params.direction = .rx ∨ ¬ s.accepts → s.takeInterrupt .timerExpiry = { s with timer := none }) ∧
  (∀ (s : State) (i : Interrupt), s.callbacksSound →
    ∃ p t, s.takeInterrupt i = { s with pendingEvents := p, timer := t } ∧
      p &&& s.pendingEvents = s.pendingEvents ∧ (t = s.timer ∨ t = none))

/-- 30_encoding.md section 3, 60_exceptions.md section 1: no post sets a reserved bit, and a drain or an event word that
has one faults and dispatches nothing. That an event word reaches the step as an input is the model's choice (entry 6);
which bits are reserved is marked by the spec as presumed (entry 18). -/
def Obligations.ReservedEventBitsFault : Prop :=
  (∀ (p : Half) (e : TxEvent), postedTo p (.tx e) &&& 0xFC01#16 = p &&& 0xFC01#16) ∧
  (∀ (p : Half) (e : RxEvent), postedTo p (.rx e) &&& 0xFE01#16 = p &&& 0xFE01#16) ∧
  (∀ (s : State) (i : Instr),
    (i = .poll ∨ i = .reset ∨ i = .enable ∨ i = .disable ∨ i = .auth ∨ ∃ u, i = .setphy u) →
    s.accepts → s.undisturbed →
    s.pendingEvents &&& (match s.params.direction with | .tx => 0xFC01#16 | .rx => 0xFE01#16) ≠ 0#16 →
    exec i s = .fault .reservedEvent) ∧
  (∀ (s : State) (w : Half) (rest : List Input),
    w &&& (match s.params.direction with | .tx => 0xFC01#16 | .rx => 0xFE01#16) ≠ 0#16 →
    s.inputs = .fetch (.events w) :: rest → step s = .fault .reservedEvent)

/-- 41_event_queue.md section 1: what a post does to `PendingEvents`, event by event, that it does nothing else, and the
suppression pairs in both orders. -/
def Obligations.PostSetsItsBitAndSuppresses : Prop :=
  (∀ (s : State) (e : Event), s.post e = { s with pendingEvents := postedTo s.pendingEvents e }) ∧
  (∀ (p : Half) (e : TxEvent), postedTo p (.tx e) =
    (p &&& ~~~(if e = .disable then 0x0010#16 else if e = .phyDown then 0x0080#16 else 0#16)) |||
      1#16 <<< e.number) ∧
  (∀ (p : Half) (e : RxEvent), postedTo p (.rx e) =
    (p &&& ~~~(if e = .disable then 0x0010#16 else if e = .phyDown then 0x0040#16 else 0#16)) |||
      1#16 <<< e.number) ∧
  postedTo (postedTo 0#16 (.tx .enable)) (.tx .disable) = 0x0008#16 ∧
  postedTo (postedTo 0#16 (.tx .disable)) (.tx .enable) = 0x0018#16 ∧
  postedTo (postedTo 0#16 (.tx .phyUp)) (.tx .phyDown) = 0x0040#16 ∧
  postedTo (postedTo 0#16 (.tx .phyDown)) (.tx .phyUp) = 0x00C0#16 ∧
  postedTo (postedTo 0#16 (.rx .enable)) (.rx .disable) = 0x0008#16 ∧
  postedTo (postedTo 0#16 (.rx .phyUp)) (.rx .phyDown) = 0x0020#16

/-- 41_event_queue.md section 2: the drain takes and clears `PendingEvents`, then dispatches each set bit of what it took
once, lowest event number first. Read for a drain no interrupt falls into (entry 9 says where one may). -/
def Obligations.DrainDispatchesInAscendingOrder : Prop :=
  txEventOrder.map TxEvent.number = [1, 2, 3, 4, 5, 6, 7, 8, 9] ∧
  rxEventOrder.map RxEvent.number = [1, 2, 3, 4, 5, 6, 7, 8] ∧
  ∀ s : State, s.undisturbed → s.pendingLegal →
    (s.params.direction = .tx →
      drain s = (txEventOrder.filter fun e => s.pendingEvents.getLsbD e.number).foldlM
        (fun t e => txDispatch e t) { s with pendingEvents := 0#16 }) ∧
    (s.params.direction = .rx →
      drain s = (rxEventOrder.filter fun e => s.pendingEvents.getLsbD e.number).foldlM
        (fun t e => rxDispatch e t) { s with pendingEvents := 0#16 })

/-- 41_event_queue.md section 2, 60_exceptions.md section 2: a post that suppresses nothing, as every interrupt's is,
commutes with a whole dispatch, so an interrupt that falls inside a dispatch is as good as one after it. That interrupts
only arrive between dispatches here is the model's choice, which this justifies (entry 9). -/
def Obligations.InterruptPostsCommuteWithDispatch : Prop :=
  ∀ (s : State) (e : Event), e.suppressed = 0#16 →
    (∀ ev, txDispatch ev (s.post e) = (txDispatch ev s).map fun t => t.post e) ∧
    (∀ ev, rxDispatch ev (s.post e) = (rxDispatch ev s).map fun t => t.post e)

/-- 40_commands.md section 2: which event each life-cycle command posts, by direction, and that it then drains. -/
def Obligations.LifeCycleCommandsPostThenDrain : Prop :=
  ∀ s : State, s.accepts →
    (s.params.direction = .tx →
      exec .poll s = ended (drain (s.post (.tx .poll))) ∧
      exec .enable s = ended (drain (s.post (.tx .enable))) ∧
      exec .disable s = ended (drain (s.post (.tx .disable))) ∧
      exec (.setphy true) s = ended (drain (s.post (.tx .phyUp))) ∧
      exec (.setphy false) s = ended (drain (s.post (.tx .phyDown))) ∧
      exec .auth s = ended (drain (s.post (.tx .authenticate)))) ∧
    (s.params.direction = .rx →
      exec .poll s = ended (drain (s.post (.rx .poll))) ∧
      exec .enable s = ended (drain (s.post (.rx .enable))) ∧
      exec .disable s = ended (drain (s.post (.rx .disable))) ∧
      exec (.setphy true) s = ended (drain (s.post (.rx .phyUp))) ∧
      exec (.setphy false) s = ended (drain (s.post (.rx .phyDown))) ∧
      exec .auth s = ended (drain (s.post (.rx .authenticate))))

/-- 40_commands.md section 2, 42_tx_events.md and 44_rx_events.md section 3: `RESET` is `DISABLE` then `ENABLE`, stop and
failure included; from `DISABLED` its first half does nothing. From a Tx state other than `DISABLED` and
`TEST_FOR_REPEATER` with the link up it completes in `UNAUTHENTICATED` with every statistic zero and `EncryptionMap` and
`PhyUp` kept; from an Rx state other than `DISABLED`, with the enable sequence's answers at hand, in `UNAUTHENTICATED` with
`RiUpdates` 0. The order of the bytes written to `BKSV` is marked by the spec as presumed (entry 13). -/
def Obligations.ResetIsDisableThenEnable : Prop :=
  decodeCommand 0x000000000000000003#72 = .ok .reset ∧
  (∀ s : State, exec .reset s = match exec .disable s with
    | .next t => exec .enable t
    | .fault f => .fault f
    | .refused r => .refused r) ∧
  (∀ s : State, ¬ s.accepts → exec .reset s = .next { s with result := some .failure }) ∧
  (∀ s : State, s.txIn .disabled ∨ s.rxIn .disabled → s.calm → exec .reset s = exec .enable s) ∧
  (∀ (s : State) (st : TxState), s.txIn st → st ≠ .disabled → st ≠ .testForRepeater → s.calm → s.phyUp = true →
    exec .reset s = .next
      { s with
        tx := { s.tx with
          currentState := TxState.unauthenticated.code, previousState := TxState.disabled.code, stats := .zero
          an := 0#64, isRepeater := false }
        timer := stoppedTimer s.params s.timer
        callbacks := txCallbacks
        requests := s.requests ++ txExitRequests s.params st ++ txDisabledRequests s.params ++ txEnableRequests ++
          disarmRequests
        result := some .success }) ∧
  (∀ (s : State) (st : RxState) (a : Answers) (k : Wide) (w : Int), s.rxIn st → st ≠ .disabled → s.calm →
    s.phyUp = true → k ≠ 0#64 → w ≤ s.params.literals.ksvBytes →
    s.answers = { a with localKsv := k :: a.localKsv, writes := w :: a.writes } →
    exec .reset s = .next
      { s with
        rx := { currentState := RxState.unauthenticated.code, previousState := RxState.disabled.code, riUpdates := 0 }
        callbacks := rxCallbacks
        answers := a
        draws := s.draws + 2
        requests := s.requests ++ [.portDisable, .cipherDisable] ++
          [.cipherSetLinkStateCheck false, .cipherSetRiUpdate false, .cipherSetLinkFailCallback (.rx .check),
           .cipherSetRiUpdateCallback (.rx .updateRi), .cipherEnable, .cipherGetLocalKsv,
           .portWrite s.params.portMap.bksv (leBytes s.params.literals.ksvBytes k), .portSetAuthCallback (.rx .authenticate),
           .portEnable]
        result := some .success })

/-! ## Reset, the frame, and what nothing changes -/

/-- 40_commands.md section 2, 70_reset_and_hazards.md section 1: `CFGINIT` gives every register its reset value, whatever
it held, issues the requests of the entry of `DISABLED`, and sets `Ready`. The parameters, the other direction's registers
and what is still to come from outside are left alone. In an absent direction it fails. Interrupts that fall inside it
post to the `PendingEvents` it has cleared, and only there: with none, 0 is left. Where they may fall is read from
41_event_queue.md section 2 (entry 12); that its callbacks are then forgotten is entry 11. -/
def Obligations.CfginitResetsEveryRegister : Prop :=
  decodeCommand 0x000000000000000001#72 = .ok .cfginit ∧
  (∀ s : State, Params.directionPresent s.params = false →
    exec .cfginit s = .next { s with result := some .failure }) ∧
  (∀ (s t : State) (now : List Interrupt) (later : List (List Interrupt)) (interrupted : State),
    (s.arrivals = now :: later ∨ (s.arrivals = [] ∧ now = [] ∧ later = [])) →
    interrupted = now.foldl State.takeInterrupt { s with pendingEvents := 0#16 } →
    (now = [] → interrupted.pendingEvents = 0#16 ∧ interrupted.timer = s.timer) ∧
    (s.params.direction = .tx → s.params.txPresent = true →
      t = { s with
        tx := { currentState := 0#4, previousState := 0#4, encryptionMap := 0#64, an := 0#64, isRepeater := false
                repeaterInfo := 0#16
                stats := { authFailed := 0, authPassed := 0, readFailures := 0, linkCheckPassed := 0
                           linkCheckFailed := 0 } }
        pendingEvents := interrupted.pendingEvents
        phyUp := s.params.phyUpAtReset, ready := true, callbacks := .none
        timer := stoppedTimer s.params interrupted.timer
        requests := s.requests ++ stopRequests s.params ++
          [.cipherDisableEncryption 0xFFFFFFFFFFFFFFFF#64, .cipherDisable, .portDisable]
        arrivals := later, result := some .success } →
      exec .cfginit s = .next t) ∧
    (s.params.direction = .rx → s.params.rxPresent = true →
      t = { s with
        rx := { currentState := 0#3, previousState := 0#3, riUpdates := 0 }
        pendingEvents := interrupted.pendingEvents
        phyUp := s.params.phyUpAtReset, ready := true, callbacks := .none
        timer := interrupted.timer
        requests := s.requests ++ [.portDisable, .cipherDisable]
        arrivals := later, result := some .success } →
      exec .cfginit s = .next t))

/-- 10_state.md R38: `Ready` is 0 at power-on, `CFGINIT` sets it, nothing clears it, and without it every other command
fails and does nothing. The second and last clauses read it in the frame of 40_commands.md, where an absent direction
fails every command. -/
def Obligations.ReadyRecordsInitialisation : Prop :=
  (∀ p : Params, (State.powerOn p).ready = false) ∧ State.reset.ready = false ∧
  (∀ s : State, Params.directionPresent s.params = true → ∃ t, exec .cfginit s = .next t ∧ t.ready = true) ∧
  (∀ s t : State, step s = .next t → s.ready = true → t.ready = true) ∧
  (∀ (s : State) (i : Instr), i.eventDirection = none → i ≠ .cfginit → s.ready = false →
    exec i s = .next { s with result := some .failure }) ∧
  (∀ (s : State) (i : Instr), i.eventDirection = none → Params.directionPresent s.params = false →
    exec i s = .next { s with result := some .failure })

/-- 10_state.md R34: no step changes a parameter. -/
def Obligations.StepKeepsParameters : Prop :=
  ∀ s t : State, step s = .next t → t.params = s.params

/-- 10_state.md section 3: `EncryptionMap` is written by `ENENC` and `DISENC`, and reset by `CFGINIT`, and by no other
instruction and no interrupt. -/
def Obligations.EncryptionMapHasTwoWriters : Prop :=
  (∀ (s t : State) (i : Instr), exec i s = .next t → (∀ m, i ≠ .enenc m) → (∀ m, i ≠ .disenc m) → i ≠ .cfginit →
    t.tx.encryptionMap = s.tx.encryptionMap) ∧
  (∀ (s : State) (i : Interrupt), (s.takeInterrupt i).tx = s.tx)

/-- 70_reset_and_hazards.md section 1: after `CFGINIT` no callback is registered. Forgetting earlier registrations is
the model's reading of an inference of the spec (entry 11). -/
def Obligations.CfginitLeavesNoCallback : Prop :=
  ∀ s t : State, Params.directionPresent s.params = true → exec .cfginit s = .next t →
    t.callbacks = .none ∧
    ∀ i, i ≠ .timerExpiry → t.takeInterrupt i = t

/-! ## Commands that query or write one thing -/

/-- 40_commands.md R127, R134: the word and the one request of `SETLANES` and `SETKEYSEL`, any operand, any state. -/
def Obligations.SetlanesAndSetkeyselAskTheCipher : Prop :=
  (∀ n : Byte, decodeCommand (n.setWidth 64 ++ 0x07#8) = .ok (.setlanes n) ∧
    decodeCommand (n.setWidth 64 ++ 0x0E#8) = .ok (.setkeysel n)) ∧
  (∀ (s : State) (n : Byte), s.accepts →
    exec (.setlanes n) s = .next { s with requests := s.requests ++ [.cipherSetLaneCount n], result := some .success } ∧
    exec (.setkeysel n) s =
      .next { s with requests := s.requests ++ [.cipherSetKeySelect n], result := some .success }) ∧
  (∀ (s : State) (n : Byte), ¬ s.accepts →
    exec (.setlanes n) s = .next { s with result := some .failure } ∧
    exec (.setkeysel n) s = .next { s with result := some .failure })

/-- 40_commands.md R129, R130: what `ISINPROG` and `ISAUTH` answer in every legal state, that they change nothing, which
states of an attempt can be observed at rest, and that a frame failure takes the place of the answer. -/
def Obligations.IsinprogAndIsauthReadTheState : Prop :=
  decodeCommand 0x000000000000000009#72 = .ok .isinprog ∧ decodeCommand 0x00000000000000000A#72 = .ok .isauth ∧
  (∀ (s : State) (st : TxState), s.accepts → s.params.direction = .tx → s.tx.currentState = st.code →
    exec .isinprog s = .next { s with
      result := some (.flag (st ∈ [.determineRxCapable, .exchangeKsvs, .computations, .validateRx, .testForRepeater,
        .waitForReady, .readKsvList])) } ∧
    exec .isauth s = .next { s with result := some (.flag (st ∈ [.authenticated, .linkIntegrityCheck])) } ∧
    (st.resting = true → st.inProgress = true → st ∈ [.computations, .validateRx, .waitForReady])) ∧
  (∀ (s : State) (st : RxState), s.accepts → s.params.direction = .rx → s.rx.currentState = st.code →
    exec .isinprog s = .next { s with result := some (.flag (st = .computations)) } ∧
    exec .isauth s = .next { s with result := some (.flag (st = .authenticated)) }) ∧
  (∀ s : State, ¬ s.accepts →
    exec .isinprog s = .next { s with result := some .failure } ∧
    exec .isauth s = .next { s with result := some .failure })

/-- 40_commands.md R131, R137: `GETENC` answers the map of a Tx and asks the cipher of an Rx; `GETVER` answers
`P_VERSION`. -/
def Obligations.GetencAndGetverAnswer : Prop :=
  decodeCommand 0x00000000000000000B#72 = .ok .getenc ∧ decodeCommand 0x000000000000000011#72 = .ok .getver ∧
  (∀ s : State, s.accepts → s.params.direction = .tx →
    exec .getenc s = .next { s with result := some (.map s.tx.encryptionMap) }) ∧
  (∀ (s : State) (m : Wide) (a : Answers), s.accepts → s.params.direction = .rx →
    s.answers = { a with encryption := m :: a.encryption } →
    exec .getenc s = .next { s with
      answers := a, draws := s.draws + 1, requests := s.requests ++ [.cipherGetEncryption]
      result := some (.map m) }) ∧
  (∀ s : State, s.accepts → s.params.direction = .rx → s.answers.encryption = [] →
    ∃ m, exec .getenc s = .next { s with
      draws := s.draws + 1, requests := s.requests ++ [.cipherGetEncryption], result := some (.map m) }) ∧
  (∀ s : State, s.accepts → exec .getver s = .next { s with result := some (.version s.params.version) }) ∧
  (∀ s : State, ¬ s.accepts →
    exec .getenc s = .next { s with result := some .failure } ∧
    exec .getver s = .next { s with result := some .failure })

/-- 40_commands.md section 5: `INFO` answers some text of the registers it reports and changes no register and asks
nothing. The text is a free value of the model, taken by the model's own counter (entry 23). -/
def Obligations.InfoAnswersText : Prop :=
  ∀ s : State, s.accepts →
    exec .info s = .next { s with
      draws := s.draws + 1
      result := some (.text (Config.infoText s.draws (match s.params.direction with
        | .tx => [s.tx.currentState.toNat, s.tx.previousState.toNat, s.tx.stats.authFailed, s.tx.stats.authPassed,
                  s.tx.stats.readFailures, s.tx.stats.linkCheckPassed, s.tx.stats.linkCheckFailed]
        | .rx => [s.rx.currentState.toNat, s.rx.previousState.toNat, s.rx.riUpdates]))) }

/-- 40_commands.md section 5: `TIMEOUT` sets bit 9 of a Tx and drains nothing, also when it comes at an interruption
point of another command (where the model lets only an armed timer issue it: entry 10); on an Rx it does nothing. -/
def Obligations.TimeoutOnlyPosts : Prop :=
  (∀ s : State, s.accepts → s.params.direction = .tx →
    exec .timeout s = .next { s with pendingEvents := s.pendingEvents ||| 0x0200#16, result := some .success }) ∧
  (∀ s : State, s.accepts → s.params.direction = .rx →
    exec .timeout s = .next { s with result := some .success }) ∧
  (∀ (s : State) (later : List (List Interrupt)), s.accepts → s.params.direction = .tx → s.timer ≠ none →
    s.arrivals = [.timerExpiry] :: later →
    s.arrive = { s with pendingEvents := s.pendingEvents ||| 0x0200#16, timer := none, arrivals := later })

/-- 40_commands.md R132: `ENENC` in every legal Tx state, in `AUTHENTICATED` with the settle delays that return; on an
Rx, and where the frame fails, `FAILURE` and nothing else. -/
def Obligations.EnencAddsToTheMap : Prop :=
  (∀ m : Wide, decodeCommand (m ++ 0x0C#8) = .ok (.enenc m)) ∧
  (∀ (s : State) (st : TxState) (m : Wide), s.accepts → s.params.direction = .tx → s.tx.currentState = st.code →
    st ≠ .authenticated →
    exec (.enenc m) s = .next { s with
      tx := { s.tx with encryptionMap := s.tx.encryptionMap ||| m }, result := some .success }) ∧
  (∀ (s : State) (m : Wide), s.accepts → s.params.direction = .tx →
    s.tx.currentState = TxState.authenticated.code → s.delaysReturn →
    exec (.enenc m) s = .next { s with
      tx := { s.tx with encryptionMap := s.tx.encryptionMap ||| m }
      answers := { s.answers with
        delays := s.answers.delays.drop (settleCount s.params (s.tx.encryptionMap ||| m)) }
      draws := s.draws + settleCount s.params (s.tx.encryptionMap ||| m)
      requests := s.requests ++ settleRequests s.params (s.tx.encryptionMap ||| m)
      result := some .success }) ∧
  (∀ (s : State) (m : Wide), s.accepts → s.params.direction = .rx →
    exec (.enenc m) s = .next { s with result := some .failure }) ∧
  (∀ (s : State) (m : Wide), ¬ s.accepts → exec (.enenc m) s = .next { s with result := some .failure })

/-- 40_commands.md R133: `DISENC` in every Tx state; an empty map no longer re-posts `AUTHENTICATE` on `PHYUP`; on an Rx,
and where the frame fails, `FAILURE` and nothing else. -/
def Obligations.DisencRemovesFromTheMap : Prop :=
  (∀ m : Wide, decodeCommand (m ++ 0x0D#8) = .ok (.disenc m)) ∧
  (∀ (s : State) (m : Wide), s.accepts → s.params.direction = .tx →
    exec (.disenc m) s = .next { s with
      tx := { s.tx with encryptionMap := s.tx.encryptionMap &&& ~~~m }
      requests := s.requests ++ [.cipherDisableEncryption m], result := some .success }) ∧
  (∀ s : State, s.tx.encryptionMap = 0#64 → txRun .phyUp .phyDown s = .ok (.unauthenticated, s)) ∧
  (∀ (s : State) (m : Wide), s.accepts → s.params.direction = .rx →
    exec (.disenc m) s = .next { s with result := some .failure }) ∧
  (∀ (s : State) (m : Wide), ¬ s.accepts → exec (.disenc m) s = .next { s with result := some .failure })

/-! ## The transmitter's events and the commands that post them -/

/-- 42_tx_events.md section 1, 43_tx_procedures.md sections 1 and 2: `AUTHENTICATE` (and `AUTH`) with a capable receiver,
a valid `BKSV` that is not revoked and complete transfers starts the computations, in one dispatch, from every state that
takes the event. The cipher may answer "not complete" any number of times. The byte order, how `An` comes from the RNG and
where its bits go in the B registers are marked by the spec as presumed (entries 13, 14, 37). -/
def Obligations.TxAuthenticateStartsComputations : Prop :=
  ∀ (s t : State) (st : TxState) (b : List Byte) (k m : Wide) (rep : Bool) (n : Nat) (a : Answers),
    let l := s.params.literals
    s.txIn st → st ∈ [.unauthenticated, .computations, .validateRx, .waitForReady, .authenticated] →
    b.length = l.ksvBytes → isValidKsv l (unLE 64 b) = true →
    s.answers = exchangeAnswers s.params b k m rep n a →
    let an := if m = 0#64 then l.anFallback else m
    t = { s with
      tx := { s.tx with
        currentState := TxState.computations.code, previousState := TxState.exchangeKsvs.code, an := an
        isRepeater := rep }
      timer := txExitTimer s.params st s.timer
      answers := a
      draws := s.draws + exchangeDraws s.params n
      requests := s.requests ++ txExitRequests s.params st ++ disarmRequests ++ [.portIsCapable] ++
        exchangeRequests s.params (unLE 64 b) an k rep n } →
    exec .txAuthenticate s = .next t ∧ (s.calm → exec .auth s = .next (t.setResult .success))

/-- 42_tx_events.md section 1, 45_linkcheck.md section 1: `CHECK` in `AUTHENTICATED` with a match at one of the `N_RETRY`
tries counts it once, re-applies encryption and is back in `AUTHENTICATED`, neither armed nor counted as passed again; a
`POLL` that finds `CHECK` pending does that and no more. Each try takes a fresh local `Ri`. -/
def Obligations.TxCheckMatchKeepsAuthenticated : Prop :=
  ∀ (s t : State) (fs : List (Half × ReadAnswer)) (v : Half) (r : ReadAnswer) (a : Answers),
    let l := s.params.literals
    s.txIn .authenticated → fs.length < l.nRetry → (∀ f ∈ fs, tryFails l.riRoBytes f.2 f.1) →
    tryMatches l.riRoBytes r v →
    s.answers = { a with ri := fs.map Prod.fst ++ v :: a.ri, reads := fs.map Prod.snd ++ r :: a.reads } →
    s.delaysReturn →
    t = { s with
      tx := { s.tx with
        previousState := TxState.linkIntegrityCheck.code, an := 0#64
        stats := { s.tx.stats with
          linkCheckPassed := (s.tx.stats.linkCheckPassed + 1) % 2 ^ s.params.statWidth
          readFailures := (bump s.params.statWidth)^[shortReads l.riRoBytes (fs.map Prod.snd)]
            s.tx.stats.readFailures } }
      answers := { a with delays := a.delays.drop (settleCount s.params s.tx.encryptionMap) }
      draws := s.draws + 2 * (fs.length + 1) + settleCount s.params s.tx.encryptionMap
      requests := s.requests ++
        (List.replicate (fs.length + 1) [.cipherGetRi, .portRead s.params.portMap.ro l.riRoBytes]).flatten ++
        settleRequests s.params s.tx.encryptionMap } →
    exec .txCheck s = .next t ∧
    (s.accepts → s.undisturbed → s.pendingEvents = 0x0004#16 →
      exec .poll s = .next { t with pendingEvents := 0#16, result := some .success })

/-- 42_tx_events.md section 1, 45_linkcheck.md section 1, 41_event_queue.md section 3: `CHECK` in `AUTHENTICATED` with all
`N_RETRY` tries failed counts one failed check and, whatever the map, starts a new attempt in the same dispatch. With a
receiver no longer capable it ends in `UNAUTHENTICATED`, reached from `DETERMINE_RX_CAPABLE`, also in a `POLL` that finds
`CHECK` pending; with a good one, by four entry actions, in `COMPUTATIONS`, reached from `EXCHANGE_KSVS`, where such a
`POLL`, being dispatched after `CHECK`, then does what `POLL` does there. The byte order, how `An` comes from the RNG and
where its bits go are marked by the spec as presumed (entries 13, 14, 37). -/
def Obligations.TxCheckMismatchReauthenticates : Prop :=
  ∀ (s : State) (fs : List (Half × ReadAnswer)) (a a' : Answers),
    let l := s.params.literals
    s.txIn .authenticated → fs.length = l.nRetry → (∀ f ∈ fs, tryFails l.riRoBytes f.2 f.1) →
    s.answers = { a' with ri := fs.map Prod.fst ++ a'.ri, reads := fs.map Prod.snd ++ a'.reads } →
    let stats := { s.tx.stats with
      linkCheckFailed := (s.tx.stats.linkCheckFailed + 1) % 2 ^ s.params.statWidth
      readFailures := (bump s.params.statWidth)^[shortReads l.riRoBytes (fs.map Prod.snd)] s.tx.stats.readFailures }
    let asked := s.requests ++
      (List.replicate l.nRetry [.cipherGetRi, .portRead s.params.portMap.ro l.riRoBytes]).flatten ++ disarmRequests ++
      [.portIsCapable]
    (∀ t : State, a' = { a with capable := false :: a.capable } →
      t = { s with
        tx := { s.tx with
          currentState := TxState.unauthenticated.code, previousState := TxState.determineRxCapable.code, an := 0#64
          stats := stats }
        answers := a
        draws := s.draws + 2 * l.nRetry + 1
        requests := asked ++ disarmRequests } →
      exec .txCheck s = .next t ∧
      (s.accepts → s.undisturbed → s.pendingEvents = 0x0004#16 →
        exec .poll s = .next { t with pendingEvents := 0#16, result := some .success })) ∧
    (∀ (t : State) (b : List Byte) (k m : Wide) (rep : Bool) (n : Nat), b.length = l.ksvBytes →
      isValidKsv l (unLE 64 b) = true → a' = exchangeAnswers s.params b k m rep n a →
      let an := if m = 0#64 then l.anFallback else m
      t = { s with
        tx := { s.tx with
          currentState := TxState.computations.code, previousState := TxState.exchangeKsvs.code, an := an
          isRepeater := rep, stats := stats }
        answers := a
        draws := s.draws + 2 * l.nRetry + exchangeDraws s.params n
        requests := asked ++ exchangeRequests s.params (unLE 64 b) an k rep n } →
      exec .txCheck s = .next t ∧
      (∀ u : State, s.accepts → s.undisturbed → s.pendingEvents = 0x0004#16 →
        exec .txPoll { t with pendingEvents := 0#16 } = .next u → exec .poll s = .next (u.setResult .success)))

/-- 42_tx_events.md sections 1 and 3: `DISABLE` in every state that takes it: the exit action of the state left, then the
entry of `DISABLED`; the statistics, `An` and `IsRepeater` are cleared, `EncryptionMap`, `RepeaterInfo` and `PhyUp`
kept. -/
def Obligations.TxDisableEntersDisabled : Prop :=
  ∀ (s t : State) (st : TxState), s.txIn st → st ≠ .disabled → st ≠ .testForRepeater →
    t = { s with
      tx := { s.tx with
        currentState := TxState.disabled.code, previousState := st.code, an := 0#64, isRepeater := false
        stats := { authFailed := 0, authPassed := 0, readFailures := 0, linkCheckPassed := 0, linkCheckFailed := 0 } }
      timer := stoppedTimer s.params s.timer
      requests := s.requests ++ txExitRequests s.params st ++ txDisabledRequests s.params } →
    exec .txDisable s = .next t ∧ (s.calm → exec .disable s = .next (t.setResult .success))

/-- 42_tx_events.md sections 1 and 3: `ENABLE` in `DISABLED` runs the enable sequence and goes to `UNAUTHENTICATED` or,
with the link down, to `PHYDOWN`. -/
def Obligations.TxEnableLeavesDisabled : Prop :=
  ∀ (s t : State), s.txIn .disabled →
    t = { s with
      tx := { s.tx with
        currentState := if s.phyUp then TxState.unauthenticated.code else TxState.phyDown.code
        previousState := TxState.disabled.code, an := 0#64 }
      callbacks := txCallbacks
      requests := s.requests ++ txEnableRequests ++
        (if s.phyUp then disarmRequests else [.cipherDisableEncryption 0xFFFFFFFFFFFFFFFF#64, .cipherDisable]) } →
    exec .txEnable s = .next t ∧ (s.calm → exec .enable s = .next (t.setResult .success))

/-- 42_tx_events.md sections 1 and 3: `LINKDOWN` in `AUTHENTICATED` ends in `UNAUTHENTICATED`, disarmed and with
encryption off, and counts nothing; so does a `POLL` that finds it pending. -/
def Obligations.TxLinkdownEndsUnauthenticated : Prop :=
  ∀ (s t : State), s.txIn .authenticated →
    t = { s with
      tx := { s.tx with
        currentState := TxState.unauthenticated.code, previousState := TxState.authenticated.code, an := 0#64 }
      requests := s.requests ++
        [.cipherSetRiUpdate false, .cipherSetLinkStateCheck false,
         .cipherDisableEncryption 0xFFFFFFFFFFFFFFFF#64] } →
    exec .txLinkdown s = .next t ∧
    (s.accepts → s.undisturbed → s.pendingEvents = 0x0020#16 →
      exec .poll s = .next { t with pendingEvents := 0#16, result := some .success })

/-- 42_tx_events.md sections 1 and 3: `PHYDOWN` in every state that takes it: the exit action, then encryption and cipher
off, `An` and `PhyUp` cleared, no counter changed. -/
def Obligations.TxPhydownEntersPhydown : Prop :=
  ∀ (s t : State) (st : TxState), s.txIn st → st ≠ .disabled → st ≠ .phyDown → st ≠ .testForRepeater →
    t = { s with
      tx := { s.tx with currentState := TxState.phyDown.code, previousState := st.code, an := 0#64 }
      phyUp := false
      timer := txExitTimer s.params st s.timer
      requests := s.requests ++ txExitRequests s.params st ++
        [.cipherDisableEncryption 0xFFFFFFFFFFFFFFFF#64, .cipherDisable] } →
    exec .txPhydown s = .next t ∧ (s.calm → exec (.setphy false) s = .next (t.setResult .success))

/-- 42_tx_events.md sections 1 and 3, 70_reset_and_hazards.md section 3: `PHYUP` in `PHYDOWN` re-enables the cipher, ends
in `UNAUTHENTICATED` and, with a non-empty map, leaves `AUTHENTICATE` pending for the next drain: the drain that posted
it does not see it. -/
def Obligations.TxPhyupLeavesPhydown : Prop :=
  ∀ (s t : State), s.txIn .phyDown →
    t = { s with
      tx := { s.tx with
        currentState := TxState.unauthenticated.code, previousState := TxState.phyDown.code, an := 0#64 }
      phyUp := true
      pendingEvents := if s.tx.encryptionMap = 0#64 then s.pendingEvents else s.pendingEvents ||| 0x0002#16
      requests := s.requests ++ [.cipherEnable] ++ disarmRequests } →
    exec .txPhyup s = .next t ∧ (s.calm → exec (.setphy true) s = .next (t.setResult .success))

/-- 42_tx_events.md section 1, 43_tx_procedures.md section 2: `POLL` in `COMPUTATIONS` asks the cipher once; complete, it
enters `VALIDATE_RX` and starts the `T_VALIDATE_RX` timer; not complete, it stays. What the start does to a timer still
armed is the model's choice (entry 39). -/
def Obligations.TxPollAsksForComputations : Prop :=
  ∀ (s t : State) (a : Answers) (done : Bool), s.txIn .computations →
    s.answers = { a with complete := done :: a.complete } →
    t = { s with
      tx := if done then { s.tx with
              currentState := TxState.validateRx.code, previousState := TxState.computations.code } else s.tx
      timer := if done then startedTimer s.params s.params.literals.tValidateRx s.timer else s.timer
      answers := a
      draws := s.draws + 1
      requests := s.requests ++ [.cipherIsRequestComplete] ++
        (if done then startRequests s.params s.params.literals.tValidateRx else []) } →
    exec .txPoll s = .next t ∧ (s.calm → exec .poll s = .next (t.setResult .success))

/-- 42_tx_events.md section 1, 45_linkcheck.md section 1, 43_tx_procedures.md sections 3 and 4: `TIMEOUT` in `VALIDATE_RX`
with a match at one of the `N_RETRY` tries. Without a repeater it ends in `AUTHENTICATED`, counted, armed and with the map
applied; with one it clears `AINFO` (a short write is counted and ignored), applies the map and waits in
`WAIT_FOR_READY` on the `T_WAIT_READY` timer. A `POLL` that finds `TIMEOUT` pending does that and no more. What the start
does to a timer still armed is the model's choice (entry 39). -/
def Obligations.TxTimeoutMatchGoesOn : Prop :=
  ∀ (s : State) (fs : List ReadAnswer) (v : Half) (r : ReadAnswer) (a : Answers),
    let l := s.params.literals
    s.txIn .validateRx → fs.length < l.nRetry → (∀ f ∈ fs, tryFails l.riRoBytes f v) → tryMatches l.riRoBytes r v →
    s.delaysReturn →
    (∀ t : State, s.tx.isRepeater = false →
      s.answers = { a with ro := v :: a.ro, reads := fs ++ r :: a.reads } →
      t = { s with
        tx := { s.tx with
          currentState := TxState.authenticated.code, previousState := TxState.testForRepeater.code, an := 0#64
          stats := { s.tx.stats with
            authPassed := (s.tx.stats.authPassed + 1) % 2 ^ s.params.statWidth
            readFailures := (bump s.params.statWidth)^[shortReads l.riRoBytes fs] s.tx.stats.readFailures } }
        timer := stoppedTimer s.params s.timer
        answers := { a with delays := a.delays.drop (settleCount s.params s.tx.encryptionMap) }
        draws := s.draws + 2 + fs.length + settleCount s.params s.tx.encryptionMap
        requests := s.requests ++ [.cipherGetRo] ++
          List.replicate (fs.length + 1) (.portRead s.params.portMap.ro l.riRoBytes) ++ stopRequests s.params ++
          armRequests true ++ settleRequests s.params s.tx.encryptionMap } →
      exec .txTimeout s = .next t ∧
      (s.accepts → s.undisturbed → s.pendingEvents = 0x0200#16 →
        exec .poll s = .next { t with pendingEvents := 0#16, result := some .success })) ∧
    (∀ (t : State) (w : Int), s.tx.isRepeater = true → w ≤ 1 →
      s.answers = { a with ro := v :: a.ro, reads := fs ++ r :: a.reads, writes := w :: a.writes } →
      t = { s with
        tx := { s.tx with
          currentState := TxState.waitForReady.code, previousState := TxState.testForRepeater.code
          stats := { s.tx.stats with
            readFailures := (bump s.params.statWidth)^[shortReads l.riRoBytes fs + if w = 1 then 0 else 1]
              s.tx.stats.readFailures } }
        timer := startedTimer s.params l.tWaitReady (stoppedTimer s.params s.timer)
        answers := { a with delays := a.delays.drop (settleCount s.params s.tx.encryptionMap) }
        draws := s.draws + 3 + fs.length + settleCount s.params s.tx.encryptionMap
        requests := s.requests ++ [.cipherGetRo] ++
          List.replicate (fs.length + 1) (.portRead s.params.portMap.ro l.riRoBytes) ++ stopRequests s.params ++
          [.portWrite s.params.portMap.ainfo [0x00#8]] ++ settleRequests s.params s.tx.encryptionMap ++
          startRequests s.params l.tWaitReady } →
      exec .txTimeout s = .next t ∧
      (s.accepts → s.undisturbed → s.pendingEvents = 0x0200#16 →
        exec .poll s = .next { t with pendingEvents := 0#16, result := some .success }))

/-- 42_tx_events.md section 1, 45_linkcheck.md section 1: `TIMEOUT` in `VALIDATE_RX` with all `N_RETRY` tries failed, short
reads and mismatches in any mix, ends in `UNAUTHENTICATED` with `AuthFailed` one higher, not `N_RETRY`. -/
def Obligations.TxTimeoutExhaustionEndsUnauthenticated : Prop :=
  ∀ (s t : State) (v : Half) (fs : List ReadAnswer) (a : Answers),
    let l := s.params.literals
    s.txIn .validateRx → fs.length = l.nRetry → (∀ f ∈ fs, tryFails l.riRoBytes f v) →
    s.answers = { a with ro := v :: a.ro, reads := fs ++ a.reads } →
    t = { s with
      tx := { s.tx with
        currentState := TxState.unauthenticated.code, previousState := TxState.validateRx.code, an := 0#64
        stats := { s.tx.stats with
          authFailed := (s.tx.stats.authFailed + 1) % 2 ^ s.params.statWidth
          readFailures := (bump s.params.statWidth)^[shortReads l.riRoBytes fs] s.tx.stats.readFailures } }
      timer := stoppedTimer s.params s.timer
      answers := a
      draws := s.draws + 1 + l.nRetry
      requests := s.requests ++ [.cipherGetRo] ++ List.replicate l.nRetry (.portRead s.params.portMap.ro l.riRoBytes) ++
        stopRequests s.params ++ disarmRequests } →
    exec .txTimeout s = .next t ∧
    (s.accepts → s.undisturbed → s.pendingEvents = 0x0200#16 →
      exec .poll s = .next { t with pendingEvents := 0#16, result := some .success })

/-- 42_tx_events.md section 1, 43_tx_procedures.md section 3: `WAIT_FOR_READY` on `TIMEOUT`, and on `POLL` where
`P_WFR_POLL_ON_POLL`: not ready, it aborts on `TIMEOUT` and stays on `POLL`; ready with an overflow flag, whatever the
count, it aborts; ready with no device it ends in `AUTHENTICATED` without visiting `READ_KSV_LIST`; ready with 1 to 127
devices it passes through `READ_KSV_LIST`: to `AUTHENTICATED`, counted and armed, at the first attempt at the list that
succeeds, to `UNAUTHENTICATED` with `AuthFailed` one higher when all `N_RETRY` fail. The bits of `RepeaterInfo` are marked
by the spec as presumed (entry 16). -/
def Obligations.TxWaitForReadyOutcomes : Prop :=
  ∀ (s : State) (e : TxEvent) (a : Answers) (info : Option Half), s.txIn .waitForReady →
    (e = .timeout ∨ (e = .poll ∧ s.params.wfrPollOnPoll = true)) →
    s.answers = { a with repeaterInfo := info :: a.repeaterInfo } →
    (info = none → e = .poll →
      exec e.row s = .next { s with
        answers := a, draws := s.draws + 1, requests := s.requests ++ [.portGetRepeaterInfo] }) ∧
    (info = none → e = .timeout →
      exec e.row s = .next { s with
        tx := { s.tx with
          currentState := TxState.unauthenticated.code, previousState := TxState.waitForReady.code, an := 0#64 }
        timer := stoppedTimer s.params s.timer
        answers := a, draws := s.draws + 1
        requests := s.requests ++ [.portGetRepeaterInfo] ++ stopRequests s.params ++ disarmRequests }) ∧
    (∀ i, info = some i → i.getLsbD 7 = true ∨ i.getLsbD 11 = true →
      exec e.row s = .next { s with
        tx := { s.tx with
          currentState := TxState.unauthenticated.code, previousState := TxState.waitForReady.code, an := 0#64
          repeaterInfo := i }
        timer := stoppedTimer s.params s.timer
        answers := a, draws := s.draws + 1
        requests := s.requests ++ [.portGetRepeaterInfo] ++ stopRequests s.params ++ disarmRequests }) ∧
    (∀ i, info = some i → i.getLsbD 7 = false → i.getLsbD 11 = false → i.extractLsb' 0 7 = 0#7 → s.delaysReturn →
      exec e.row s = .next { s with
        tx := { s.tx with
          currentState := TxState.authenticated.code, previousState := TxState.waitForReady.code, an := 0#64
          repeaterInfo := i
          stats := { s.tx.stats with authPassed := (s.tx.stats.authPassed + 1) % 2 ^ s.params.statWidth } }
        timer := stoppedTimer s.params s.timer
        answers := { a with delays := a.delays.drop (settleCount s.params s.tx.encryptionMap) }
        draws := s.draws + 1 + settleCount s.params s.tx.encryptionMap
        requests := s.requests ++ [.portGetRepeaterInfo] ++ stopRequests s.params ++ armRequests true ++
          settleRequests s.params s.tx.encryptionMap }) ∧
    (∀ i, info = some i → i.getLsbD 7 = false → i.getLsbD 11 = false → i.extractLsb' 0 7 ≠ 0#7 →
      let entered : State := { s with
        tx := { s.tx with repeaterInfo := i }
        timer := stoppedTimer s.params s.timer
        answers := a, draws := s.draws + 1
        requests := s.requests ++ [.portGetRepeaterInfo] ++ stopRequests s.params }
      (∀ (n : Nat) (u v : State), n < s.params.literals.nRetry → attemptsFail n entered u →
        ksvListAttempt u = .ok (true, v) → v.delaysReturn →
        exec e.row s = .next { v with
          tx := { v.tx with
            currentState := TxState.authenticated.code, previousState := TxState.readKsvList.code, an := 0#64
            stats := { v.tx.stats with authPassed := (s.tx.stats.authPassed + 1) % 2 ^ s.params.statWidth } }
          answers := { v.answers with delays := v.answers.delays.drop (settleCount s.params s.tx.encryptionMap) }
          draws := v.draws + settleCount s.params s.tx.encryptionMap
          requests := v.requests ++ armRequests true ++ settleRequests s.params s.tx.encryptionMap }) ∧
      (∀ u : State, attemptsFail s.params.literals.nRetry entered u →
        exec e.row s = .next { u with
          tx := { u.tx with
            currentState := TxState.unauthenticated.code, previousState := TxState.readKsvList.code, an := 0#64
            stats := { u.tx.stats with authFailed := (s.tx.stats.authFailed + 1) % 2 ^ s.params.statWidth } }
          requests := u.requests ++ disarmRequests }))

/-- 42_tx_events.md section 2: every pair of state and event that its table leaves empty, transient states included,
changes `PhyUp` at most, and only on `PHYUP` and `PHYDOWN`; no request goes out. -/
def Obligations.TxIgnoredEventsChangeNothing : Prop :=
  ∀ (s : State) (st : TxState) (e : TxEvent), s.txIn st → txHandles s.params e st = false →
    exec e.row s = .next { s with
      phyUp := if e = .phyUp then true else if e = .phyDown then false else s.phyUp }

/-- 40_commands.md section 2, 42_tx_events.md and 44_rx_events.md section 1: "calling `Disable` twice in a row, then
`Poll`": the first call enters `DISABLED` and clears the statistics, the other two commands change nothing at all. -/
def Obligations.DisableTwiceThenPollClearsOnce : Prop :=
  (∀ (s : State) (st : TxState), s.txIn st → st ≠ .disabled → st ≠ .testForRepeater → s.calm →
    ∃ t, exec .disable s = .next t ∧ exec .disable t = .next t ∧ exec .poll t = .next t ∧
      t.tx.currentState = TxState.disabled.code ∧ t.tx.stats = .zero ∧
      t.tx.encryptionMap = s.tx.encryptionMap) ∧
  (∀ (s : State) (st : RxState), s.rxIn st → st ≠ .disabled → s.calm →
    ∃ t, exec .disable s = .next t ∧ exec .disable t = .next t ∧ exec .poll t = .next t ∧
      t.rx.currentState = RxState.disabled.code ∧ t.rx.riUpdates = 0)

/-! ## The receiver's events and the commands that post them -/

/-- 44_rx_events.md sections 1 and 3: `AUTHENTICATE` (and `AUTH`) in every state that takes it starts the computations
from the port's `AKSV` and `AN`, in place in `COMPUTATIONS`; a short read of either asks the cipher nothing and ends in
`UNAUTHENTICATED`, reached from `COMPUTATIONS`. The byte order and where the bits of `An` go in the B registers are
marked by the spec as presumed (entries 13, 14). -/
def Obligations.RxAuthenticateStartsComputations : Prop :=
  ∀ (s t : State) (st : RxState) (a : Answers),
    let l := s.params.literals
    s.rxIn st →
    st ∈ [.unauthenticated, .authenticated, .linkIntegrityFailed, .computations] →
    ((∃ (b1 b2 : List Byte) (rep : Bool), b1.length = l.ksvBytes ∧ b2.length = l.anBytes ∧
        s.answers = { a with
          reads := { count := l.ksvBytes, bytes := b1 } :: { count := l.anBytes, bytes := b2 } :: a.reads
          repeater := rep :: a.repeater } ∧
        t = { s with
          rx := { s.rx with
            currentState := RxState.computations.code
            previousState := if st = .computations then s.rx.previousState else st.code }
          answers := a
          draws := s.draws + 3
          requests := s.requests ++
            [.portRead s.params.portMap.aksv l.ksvBytes, .portRead s.params.portMap.an l.anBytes,
             .cipherSetRemoteKsv (unLE 64 b1), .portIsRepeater] ++ computeRequests (unLE 64 b2) rep }) ∨
      (∃ r : ReadAnswer, r.count < l.ksvBytes ∧ s.answers = { a with reads := r :: a.reads } ∧
        t = { s with
          rx := { s.rx with
            currentState := RxState.unauthenticated.code, previousState := RxState.computations.code }
          answers := a
          draws := s.draws + 1
          requests := s.requests ++ [.portRead s.params.portMap.aksv l.ksvBytes] }) ∨
      (∃ (b1 : List Byte) (r : ReadAnswer), b1.length = l.ksvBytes ∧ r.count < l.anBytes ∧
        s.answers = { a with reads := { count := l.ksvBytes, bytes := b1 } :: r :: a.reads } ∧
        t = { s with
          rx := { s.rx with
            currentState := RxState.unauthenticated.code, previousState := RxState.computations.code }
          answers := a
          draws := s.draws + 2
          requests := s.requests ++
            [.portRead s.params.portMap.aksv l.ksvBytes, .portRead s.params.portMap.an l.anBytes] })) →
    exec .rxAuthenticate s = .next t ∧ (s.calm → exec .auth s = .next (t.setResult .success))

/-- 44_rx_events.md section 1, 45_linkcheck.md section 2: `CHECK` in `AUTHENTICATED` and `LINK_INTEGRITY_FAILED`. Link up:
`AUTHENTICATED`, without arming again. Link down: `LINK_INTEGRITY_FAILED`, and under `DP` the link-failure bit is written
back into `BSTATUS` unless the read is short. The place of that bit is marked by the spec as presumed (entry 19). -/
def Obligations.RxCheckFollowsTheLink : Prop :=
  ∀ (s : State) (st : RxState) (a : Answers), s.rxIn st → (st = .authenticated ∨ st = .linkIntegrityFailed) →
    (s.answers = { a with linkUp := true :: a.linkUp } →
      exec .rxCheck s = .next { s with
        rx := if st = .authenticated then s.rx else { s.rx with
                currentState := RxState.authenticated.code, previousState := RxState.linkIntegrityFailed.code }
        answers := a, draws := s.draws + 1, requests := s.requests ++ [.cipherIsLinkUp] }) ∧
    (s.answers = { a with linkUp := false :: a.linkUp } → s.params.protocol = .hdmi →
      exec .rxCheck s = .next { s with
        rx := if st = .linkIntegrityFailed then s.rx else { s.rx with
                currentState := RxState.linkIntegrityFailed.code, previousState := RxState.authenticated.code }
        answers := a, draws := s.draws + 1, requests := s.requests ++ [.cipherIsLinkUp] }) ∧
    (∀ (x : Byte) (w : Int), w ≤ 1 → s.params.protocol = .dp →
      s.answers = { a with
        linkUp := false :: a.linkUp, reads := { count := 1, bytes := [x] } :: a.reads, writes := w :: a.writes } →
      exec .rxCheck s = .next { s with
        rx := if st = .linkIntegrityFailed then s.rx else { s.rx with
                currentState := RxState.linkIntegrityFailed.code, previousState := RxState.authenticated.code }
        answers := a, draws := s.draws + 3
        requests := s.requests ++ [.cipherIsLinkUp, .portRead s.params.portMap.bstatus 1,
          .portWrite s.params.portMap.bstatus [x ||| 0x04#8]] }) ∧
    (∀ r : ReadAnswer, r.count < 1 → s.params.protocol = .dp →
      s.answers = { a with linkUp := false :: a.linkUp, reads := r :: a.reads } →
      exec .rxCheck s = .next { s with
        rx := if st = .linkIntegrityFailed then s.rx else { s.rx with
                currentState := RxState.linkIntegrityFailed.code, previousState := RxState.authenticated.code }
        answers := a, draws := s.draws + 2
        requests := s.requests ++ [.cipherIsLinkUp, .portRead s.params.portMap.bstatus 1] })

/-- 44_rx_events.md sections 1 and 3: `DISABLE` in every state but `DISABLED`. -/
def Obligations.RxDisableEntersDisabled : Prop :=
  ∀ (s t : State) (st : RxState), s.rxIn st → st ≠ .disabled →
    t = { s with
      rx := { currentState := RxState.disabled.code, previousState := st.code, riUpdates := 0 }
      requests := s.requests ++ [.portDisable, .cipherDisable] } →
    exec .rxDisable s = .next t ∧ (s.calm → exec .disable s = .next (t.setResult .success))

/-- 44_rx_events.md sections 1 and 3: `ENABLE` in `DISABLED` runs the enable sequence, asking once more for a local KSV
that is zero and not using the result of the `BKSV` write, and goes to `UNAUTHENTICATED` or, with the link down, to
`PHYDOWN`. The byte order is marked by the spec as presumed (entry 13). -/
def Obligations.RxEnableLeavesDisabled : Prop :=
  ∀ (s t : State) (a : Answers) (ks : List Wide) (k : Wide) (w : Int),
    s.rxIn .disabled → w ≤ s.params.literals.ksvBytes →
    ((ks = [k] ∧ k ≠ 0#64) ∨ ks = [0#64, k]) →
    s.answers = { a with localKsv := ks ++ a.localKsv, writes := w :: a.writes } →
    t = { s with
      rx := { s.rx with
        currentState := if s.phyUp then RxState.unauthenticated.code else RxState.phyDown.code
        previousState := RxState.disabled.code }
      callbacks := rxCallbacks
      answers := a
      draws := s.draws + ks.length + 1
      requests := s.requests ++
        [.cipherSetLinkStateCheck false, .cipherSetRiUpdate false, .cipherSetLinkFailCallback (.rx .check),
         .cipherSetRiUpdateCallback (.rx .updateRi), .cipherEnable] ++
        List.replicate ks.length .cipherGetLocalKsv ++
        [.portWrite s.params.portMap.bksv (leBytes s.params.literals.ksvBytes k), .portSetAuthCallback (.rx .authenticate),
         .portEnable] } →
    exec .rxEnable s = .next t ∧ (s.calm → exec .enable s = .next (t.setResult .success))

/-- 44_rx_events.md sections 1 and 3: `PHYDOWN` in every state that takes it, and `PHYUP` in `PHYDOWN`, move the machine
and `PhyUp`, ask nothing and post nothing. -/
def Obligations.RxPhyEventsMoveQuietly : Prop :=
  (∀ (s t : State) (st : RxState), s.rxIn st → st ≠ .disabled → st ≠ .phyDown →
    t = { s with
      rx := { s.rx with currentState := RxState.phyDown.code, previousState := st.code }
      phyUp := false } →
    exec .rxPhydown s = .next t ∧ (s.calm → exec (.setphy false) s = .next (t.setResult .success))) ∧
  (∀ s t : State, s.rxIn .phyDown →
    t = { s with
      rx := { s.rx with currentState := RxState.unauthenticated.code, previousState := RxState.phyDown.code }
      phyUp := true } →
    exec .rxPhyup s = .next t ∧ (s.calm → exec (.setphy true) s = .next (t.setResult .success)))

/-- 44_rx_events.md section 1, 45_linkcheck.md section 2: `POLL` in `COMPUTATIONS` asks the cipher once; not complete, it
stays; complete, it publishes `Ro` (`DP`) or `Ri` (`HDMI`), whatever becomes of the write, and enters `AUTHENTICATED`,
armed for that protocol. The byte order is marked by the spec as presumed (entry 13). -/
def Obligations.RxPollPublishesAndAuthenticates : Prop :=
  ∀ (s t : State) (a : Answers),
    let l := s.params.literals
    s.rxIn .computations →
    ((s.answers = { a with complete := false :: a.complete } ∧
        t = { s with answers := a, draws := s.draws + 1, requests := s.requests ++ [.cipherIsRequestComplete] }) ∨
      (∃ (v : Half) (w : Int), w ≤ l.riRoBytes ∧ s.params.protocol = .hdmi ∧
        s.answers = { a with complete := true :: a.complete, ri := v :: a.ri, writes := w :: a.writes } ∧
        t = { s with
          rx := { s.rx with
            currentState := RxState.authenticated.code, previousState := RxState.computations.code }
          answers := a, draws := s.draws + 3
          requests := s.requests ++ [.cipherIsRequestComplete, .cipherGetRi,
            .portWrite s.params.portMap.ro (leBytes l.riRoBytes v), .cipherSetRiUpdate true] }) ∨
      (∃ (v : Half) (w : Int), w ≤ l.riRoBytes ∧ s.params.protocol = .dp ∧
        s.answers = { a with complete := true :: a.complete, ro := v :: a.ro, writes := w :: a.writes } ∧
        t = { s with
          rx := { s.rx with
            currentState := RxState.authenticated.code, previousState := RxState.computations.code }
          answers := a, draws := s.draws + 3
          requests := s.requests ++ [.cipherIsRequestComplete, .cipherGetRo,
            .portWrite s.params.portMap.ro (leBytes l.riRoBytes v), .cipherSetLinkStateCheck true] })) →
    exec .rxPoll s = .next t ∧ (s.calm → exec .poll s = .next (t.setResult .success))

/-- 44_rx_events.md section 1, 45_linkcheck.md section 2: `UPDATE_RI` in `AUTHENTICATED` under `HDMI` writes the new `Ri` and
adds exactly 1 to `RiUpdates`, also when the write is short; neither state register changes. So does a `POLL` that finds
it pending. The byte order is marked by the spec as presumed (entry 13). -/
def Obligations.RxUpdateRiCountsOnce : Prop :=
  ∀ (s t : State) (a : Answers) (v : Half) (w : Int),
    let l := s.params.literals
    s.rxIn .authenticated → s.params.protocol = .hdmi → w ≤ l.riRoBytes →
    s.answers = { a with ri := v :: a.ri, writes := w :: a.writes } →
    t = { s with
      rx := { s.rx with riUpdates := (s.rx.riUpdates + 1) % 2 ^ s.params.statWidth }
      answers := a
      draws := s.draws + 2
      requests := s.requests ++ [.cipherGetRi, .portWrite s.params.portMap.ro (leBytes l.riRoBytes v)] } →
    exec .rxUpdateRi s = .next t ∧
    (s.accepts → s.undisturbed → s.pendingEvents = 0x0100#16 →
      exec .poll s = .next { t with pendingEvents := 0#16, result := some .success })

/-- 44_rx_events.md section 2: every pair of state and event that its table leaves empty changes `PhyUp` at most, and
only on `PHYUP` and `PHYDOWN`; no request goes out. -/
def Obligations.RxIgnoredEventsChangeNothing : Prop :=
  ∀ (s : State) (st : RxState) (e : RxEvent), s.rxIn st → rxHandles s.params e st = false →
    exec e.row s = .next { s with
      phyUp := if e = .phyUp then true else if e = .phyDown then false else s.phyUp }

/-! ## Procedures and data -/

/-- 20_memory.md section 2, 60_exceptions.md section 1: a transfer succeeds exactly when the count is the length asked
for; a short or negative count fails it and its bytes are not used; a larger count is outside the contract and faults.
Each takes one answer. -/
def Obligations.TransfersSucceedExactlyWhenWhole : Prop :=
  (∀ (s : State) (off : Byte) (n : Nat) (r : ReadAnswer) (a : Answers),
    s.answers = { a with reads := r :: a.reads } →
    let t := { s with answers := a, draws := s.draws + 1, requests := s.requests ++ [.portRead off n] }
    (r.count < n → s.portRead off n = .ok (none, t)) ∧
    (r.count = n → r.bytes.length = n → s.portRead off n = .ok (some r.bytes, t)) ∧
    (n < r.count → s.portRead off n = .error .countExceedsRequest)) ∧
  (∀ (s : State) (off : Byte) (l : List Byte) (k : Int) (a : Answers),
    s.answers = { a with writes := k :: a.writes } →
    let t := { s with answers := a, draws := s.draws + 1, requests := s.requests ++ [.portWrite off l] }
    (k < l.length → s.portWrite off l = .ok (false, t)) ∧
    (k = l.length → s.portWrite off l = .ok (true, t)) ∧
    (l.length < k → s.portWrite off l = .error .countExceedsRequest))

/-- 30_encoding.md R99: a KSV is valid exactly when 20 of its bits 39:0 are one; bits 63:40 do not count; zero and 40
ones are invalid; a KSV crosses the port as its bits 39:0, and five bytes read from the port have none of bits 63:40
set. -/
def Obligations.KsvValidityCountsLowBits : Prop :=
  (∀ x : Wide, isValidKsv statedLiterals x = true ↔
    ((List.range 40).filter fun i => x.getLsbD i).length = 20) ∧
  (∀ (l : Literals) (x : Wide), isValidKsv l x = true ↔
    ((List.range l.ksvBits).filter fun i => x.getLsbD i).length = l.ksvOnes) ∧
  (∀ x y : Wide, x.extractLsb' 0 40 = y.extractLsb' 0 40 →
    isValidKsv statedLiterals x = isValidKsv statedLiterals y) ∧
  isValidKsv statedLiterals 0#64 = false ∧ isValidKsv statedLiterals 0xFFFFFFFFFF#64 = false ∧
  isValidKsv statedLiterals 0xB70361F714#64 = true ∧
  (∀ x : Wide, leBytes statedLiterals.ksvBytes (x &&& 0xFFFFFFFFFF#64) = leBytes statedLiterals.ksvBytes x) ∧
  (∀ b : List Byte, b.length = statedLiterals.ksvBytes → (unLE 64 b).extractLsb' 40 24 = 0#24)

/-- 00_scope.md section 4 and 30_encoding.md section 5: `LE_N` gives the bytes from the least significant up, `unLE`
undoes it, and the B registers hold every bit of `An` once with the repeater bit above them. The byte order and the
split are marked by the spec as presumed (entries 13, 14). -/
def Obligations.PortBytesAndBRegistersLoseNothing : Prop :=
  (∀ (w n : Nat) (v : BitVec w), leBytes n v = (List.range n).map fun i => v.extractLsb' (8 * i) 8) ∧
  (∀ (n : Nat) (v : BitVec (8 * n)), unLE (8 * n) (leBytes n v) = v) ∧
  (∀ (n : Nat) (b : List Byte), b.length = n → leBytes n (unLE (8 * n) b) = b) ∧
  (∀ (an : Wide) (rep : Bool),
    (bRegZ an rep).extractLsb' 0 8 ++ (bRegY an).extractLsb' 0 28 ++ (bRegX an).extractLsb' 0 28 = an ∧
    (bRegZ an rep).getLsbD 8 = rep ∧ (bRegZ an rep).extractLsb' 9 23 = 0#23 ∧ (bRegY an).extractLsb' 28 4 = 0#4 ∧
    (bRegX an).extractLsb' 28 4 = 0#4)

/-- 43_tx_procedures.md sections 1 and 5, 60_exceptions.md section 1: the refusals before the computations, each with its
counter and with the requests of the part of the attempt it falls in: `determineRxCapable` of an incapable receiver,
`exchangeKsvs` of a short, invalid or revoked `BKSV`, and `sendAnAksv`, the part of `ExchangeKsvs` that follows
`GenerateAn`, of a short `AN` or `AKSV` write. The byte order and that `AN` is written before `AKSV` are marked by the
spec as presumed (entries 13, 37). -/
def Obligations.ExchangeRefusalsCountShortTransfersOnly : Prop :=
  ∀ (s : State) (a : Answers),
    let l := s.params.literals
    let failed := { s.tx with stats := { s.tx.stats with
      readFailures := (s.tx.stats.readFailures + 1) % 2 ^ s.params.statWidth } }
    (s.answers = { a with capable := false :: a.capable } →
      determineRxCapable s = (.unauthenticated, { s with
        answers := a, draws := s.draws + 1, requests := s.requests ++ disarmRequests ++ [.portIsCapable] })) ∧
    (∀ r : ReadAnswer, s.answers = { a with reads := r :: a.reads } → r.count < l.ksvBytes →
      exchangeKsvs s = .ok (.unauthenticated, { s with
        tx := failed, answers := a, draws := s.draws + 1
        requests := s.requests ++ [.portRead s.params.portMap.bksv l.ksvBytes] })) ∧
    (∀ b : List Byte, b.length = l.ksvBytes → s.answers = { a with reads := wholeRead b :: a.reads } →
      isValidKsv l (unLE 64 b) = false →
      exchangeKsvs s = .ok (.unauthenticated, { s with
        answers := a, draws := s.draws + 1
        requests := s.requests ++ [.portRead s.params.portMap.bksv l.ksvBytes] })) ∧
    (∀ b : List Byte, b.length = l.ksvBytes → s.params.hooks.isKsvRevoked = true →
      s.answers = { a with reads := wholeRead b :: a.reads, revoked := true :: a.revoked } →
      isValidKsv l (unLE 64 b) = true →
      exchangeKsvs s = .ok (.unauthenticated, { s with
        answers := a, draws := s.draws + 2
        requests := s.requests ++ [.portRead s.params.portMap.bksv l.ksvBytes, .isKsvRevoked (unLE 64 b)] })) ∧
    (∀ (k : Wide) (w : Int), w < l.anBytes → s.answers = { a with writes := w :: a.writes } →
      sendAnAksv k s = .ok (.unauthenticated, { s with
        tx := failed, answers := a, draws := s.draws + 1
        requests := s.requests ++ [.portWrite s.params.portMap.an (leBytes l.anBytes s.tx.an)] })) ∧
    (∀ (k m : Wide) (w : Int), w < l.ksvBytes →
      s.answers = { a with writes := (l.anBytes : Int) :: w :: a.writes, localKsv := m :: a.localKsv } →
      sendAnAksv k s = .ok (.unauthenticated, { s with
        tx := failed, answers := a, draws := s.draws + 3
        requests := s.requests ++ [.portWrite s.params.portMap.an (leBytes l.anBytes s.tx.an), .cipherGetLocalKsv,
          .portWrite s.params.portMap.aksv (leBytes l.ksvBytes m)] }))

/-- 43_tx_procedures.md section 1: `GenerateAn`, whenever it ends, writes `An` and no other register, never zero where
`AN_FALLBACK` is not, and `AN_FALLBACK` exactly for a zero answer; a cipher that is listed to answer "complete" ends it.
The RNG path is marked by the spec as presumed (entry 37). -/
def Obligations.GenerateAnIsNeverZero : Prop :=
  (∀ s t : State, generateAn s = .ok t →
    (s.params.literals.anFallback ≠ 0#64 → t.tx.an ≠ 0#64) ∧
      ∃ u, s.asks u ∧ t = { u with tx := { s.tx with an := t.tx.an } }) ∧
  (∀ (s : State) (n : Nat) (m : Wide) (a : Answers),
    s.answers = { a with complete := List.replicate n false ++ true :: a.complete, mi := m :: a.mi } →
    generateAn s = .ok { s with
      tx := { s.tx with an := if m = 0#64 then s.params.literals.anFallback else m }
      answers := a, draws := s.draws + n + 2
      requests := s.requests ++ [.cipherDoRequest .rng] ++ List.replicate (n + 1) .cipherIsRequestComplete ++
        [.cipherGetMi] })

/-- 43_tx_procedures.md R217: `ReadinessCheck`, whole: which runs it is, an error answer, the overflow test before the
count test, and what it writes. The bits it tests are those the rule names. -/
def Obligations.ReadinessCheckChoosesTheState : Prop :=
  (∀ s : State, txRun .timeout .waitForReady s = .ok (readinessCheck true s) ∧
    txRun .poll .waitForReady s =
      .ok (if s.params.wfrPollOnPoll then readinessCheck false s else (.waitForReady, s))) ∧
  ∀ (s : State) (atTimeout : Bool) (a : Answers) (info : Option Half),
    s.answers = { a with repeaterInfo := info :: a.repeaterInfo } →
    let t := { s with answers := a, draws := s.draws + 1, requests := s.requests ++ [.portGetRepeaterInfo] }
    (info = none →
      readinessCheck atTimeout s = (if atTimeout then .unauthenticated else .waitForReady, t)) ∧
    (∀ i, info = some i →
      readinessCheck atTimeout s =
        (if i.getLsbD 7 = true ∨ i.getLsbD 11 = true then .unauthenticated
         else if i.extractLsb' 0 7 = 0#7 then .authenticated
         else .readKsvList,
         { t with tx := { s.tx with repeaterInfo := i } }))

/-- 43_tx_procedures.md section 3: the list read of one attempt asks for the `total` bytes in full chunks and then what is
left, `ceil(total / P_KSV_CHUNK)` reads, and gives the bytes delivered, in the order read; the first short read ends it,
counted once. Nothing else changes but requests and answers. A chunk of 1 or more never faults but for a count outside the
contract. -/
def Obligations.KsvListReadIsWholeInChunks : Prop :=
  ∀ (s : State) (total : Nat), 1 ≤ s.params.ksvChunk →
    let sizes := chunkSizes s.params.ksvChunk total
    let failed := fun u : State => { u with tx := { s.tx with stats := { s.tx.stats with
      readFailures := (s.tx.stats.readFailures + 1) % 2 ^ s.params.statWidth } } }
    (sizes.sum = total ∧ sizes.length = (total + s.params.ksvChunk - 1) / s.params.ksvChunk ∧
      ∀ n ∈ sizes, 1 ≤ n ∧ n ≤ s.params.ksvChunk) ∧
    (∀ (bs : List (List Byte)) (a : Answers), bs.map List.length = sizes →
      s.answers = { a with reads := bs.map wholeRead ++ a.reads } →
      readKsvFifo total total [] s = .ok (some bs.flatten, { s with
        answers := a, draws := s.draws + sizes.length
        requests := s.requests ++ sizes.map (.portRead s.params.portMap.ksvFifo) })) ∧
    (∀ (bs : List (List Byte)) (m : Nat) (r : ReadAnswer) (a : Answers),
      bs.map List.length = sizes.take bs.length → sizes[bs.length]? = some m → r.count < m →
      s.answers = { a with reads := bs.map wholeRead ++ r :: a.reads } →
      readKsvFifo total total [] s = .ok (none, failed { s with
        answers := a, draws := s.draws + (bs.length + 1)
        requests := s.requests ++ (sizes.take (bs.length + 1)).map (.portRead s.params.portMap.ksvFifo) })) ∧
    (∀ (r : Option (List Byte)) (t : State), readKsvFifo total total [] s = .ok (r, t) →
      ∃ u, s.asks u ∧ ((t = u ∧ ∃ l, r = some l ∧ l.length = total) ∨ (t = failed u ∧ r = none))) ∧
    (∀ f, readKsvFifo total total [] s = .error f → f = .countExceedsRequest)

/-- 43_tx_procedures.md section 3, 30_encoding.md section 5: one attempt, whatever the chunk. With the list whole it
succeeds exactly when the words of the SHA-1 digest of the list, `RepeaterInfo` and `Mo` are the words read; it stops
reading at the first word that differs, which counts nothing, or that is read short, which counts one read failure; a list
that is read short asks for neither `Mo` nor a word. No other register changes. That SHA-1 is the digest, how its words
meet the registers, and the byte order are marked by the spec as presumed (entries 13, 17). -/
def Obligations.KsvListAttemptComparesTheDigest : Prop :=
  ∀ (s : State) (a : Answers) (bs : List (List Byte)),
    let l := s.params.literals
    let sizes := chunkSizes s.params.ksvChunk (l.ksvBytes * (s.tx.repeaterInfo.extractLsb' 0 7).toNat)
    let offs := [s.params.portMap.vh0, s.params.portMap.vh1, s.params.portMap.vh2, s.params.portMap.vh3,
      s.params.portMap.vh4].take l.vPrimeWords
    let failed := { s.tx with stats := { s.tx.stats with
      readFailures := (s.tx.stats.readFailures + 1) % 2 ^ s.params.statWidth } }
    let asked := s.requests ++ sizes.map (.portRead s.params.portMap.ksvFifo) ++ [.cipherGetMo]
    1 ≤ s.params.ksvChunk →
    (∀ (mo : Wide) (v : List (List Byte)), bs.map List.length = sizes → l.vPrimeWords ≤ 5 →
      v.length = l.vPrimeWords → (∀ b ∈ v, b.length = l.vPrimeWordBytes) →
      let h := (sha1 (bs.flatten ++ leBytes l.repInfoBytes s.tx.repeaterInfo ++ leBytes l.moBytes mo)).take
        l.vPrimeWords
      h.length = l.vPrimeWords ∧
      (v.map (unLE 32) = h →
        s.answers = { a with mo := mo :: a.mo, reads := bs.map wholeRead ++ (v.map wholeRead ++ a.reads) } →
        ksvListAttempt s = .ok (true, { s with
          answers := a, draws := s.draws + (sizes.length + 1 + l.vPrimeWords)
          requests := asked ++ offs.map fun o => .portRead o l.vPrimeWordBytes })) ∧
      (∀ i, i < l.vPrimeWords → (v.map (unLE 32)).take i = h.take i → (v.map (unLE 32))[i]? ≠ h[i]? →
        s.answers = { a with
          mo := mo :: a.mo, reads := bs.map wholeRead ++ ((v.take (i + 1)).map wholeRead ++ a.reads) } →
        ksvListAttempt s = .ok (false, { s with
          answers := a, draws := s.draws + (sizes.length + 1 + (i + 1))
          requests := asked ++ (offs.take (i + 1)).map fun o => .portRead o l.vPrimeWordBytes })) ∧
      (∀ (i : Nat) (r : ReadAnswer), i < l.vPrimeWords → (v.map (unLE 32)).take i = h.take i →
        r.count < l.vPrimeWordBytes →
        s.answers = { a with
          mo := mo :: a.mo, reads := bs.map wholeRead ++ ((v.take i).map wholeRead ++ r :: a.reads) } →
        ksvListAttempt s = .ok (false, { s with
          tx := failed, answers := a, draws := s.draws + (sizes.length + 1 + (i + 1))
          requests := asked ++ (offs.take (i + 1)).map fun o => .portRead o l.vPrimeWordBytes }))) ∧
    (∀ (m : Nat) (r : ReadAnswer), bs.map List.length = sizes.take bs.length → sizes[bs.length]? = some m →
      r.count < m → s.answers = { a with reads := bs.map wholeRead ++ r :: a.reads } →
      ksvListAttempt s = .ok (false, { s with
        tx := failed, answers := a, draws := s.draws + (bs.length + 1)
        requests := s.requests ++ (sizes.take (bs.length + 1)).map (.portRead s.params.portMap.ksvFifo) }))

/-- 43_tx_procedures.md R218: `ValidateKsvList`, the entry of `READ_KSV_LIST`: attempts until the first that succeeds, at
most `N_RETRY` of them; what the attempts change is `ReadFailures` alone, and only their exhaustion counts, once, in
`AuthFailed`. -/
def Obligations.ValidateKsvListEndsAtFirstSuccess : Prop :=
  statedLiterals.nRetry = 3 ∧
  ∀ s : State,
    txEnter .readKsvList s = validateKsvList s ∧
    (∀ (n : Nat) (u t : State), n < s.params.literals.nRetry → attemptsFail n s u →
      ksvListAttempt u = .ok (true, t) → validateKsvList s = .ok (.authenticated, t)) ∧
    (∀ u : State, attemptsFail s.params.literals.nRetry s u →
      validateKsvList s = .ok (.unauthenticated, { u with tx := { u.tx with
        stats := { u.tx.stats with authFailed := (u.tx.stats.authFailed + 1) % 2 ^ u.params.statWidth } } })) ∧
    (∀ (n : Nat) (u : State) (f : Fault), n < s.params.literals.nRetry → attemptsFail n s u →
      ksvListAttempt u = .error f → validateKsvList s = .error f) ∧
    (∀ (n : Nat) (u t : State) (ok : Bool), attemptsFail n s u → (t = u ∨ ksvListAttempt u = .ok (ok, t)) →
      ∃ (v : State) (c : Nat), s.asks v ∧
        t = { v with tx := { s.tx with stats := { s.tx.stats with readFailures := c } } })

/-- 43_tx_procedures.md section 3, 45_linkcheck.md section 1: whatever the transfers answer, `ValidateKsvList` and
`ValidateRx` add at most 1 to `AuthFailed`, exactly when they choose `UNAUTHENTICATED`, and `LinkIntegrityCheck` adds
exactly 1 to one of its two counters; but for `ReadFailures` no register changes otherwise. -/
def Obligations.ComparisonsCountTheirOutcomeOnce : Prop :=
  (∀ (s t : State) (n : TxState), validateKsvList s = .ok (n, t) ∨ validateRx s = .ok (n, t) →
    ∃ (u : State) (c : Nat), s.asks u ∧
      ((n = .unauthenticated ∧ t = { u with tx := { s.tx with stats := { s.tx.stats with
          readFailures := c, authFailed := (s.tx.stats.authFailed + 1) % 2 ^ s.params.statWidth } } }) ∨
       ((n = .authenticated ∨ n = .testForRepeater) ∧
          t = { u with tx := { s.tx with stats := { s.tx.stats with readFailures := c } } }))) ∧
  (∀ (s t : State) (n : TxState), linkIntegrityCheck s = .ok (n, t) →
    ∃ (u : State) (c : Nat), s.asks u ∧
      ((n = .authenticated ∧ t = { u with tx := { s.tx with stats := { s.tx.stats with
          readFailures := c, linkCheckPassed := (s.tx.stats.linkCheckPassed + 1) % 2 ^ s.params.statWidth } } }) ∨
       (n = .determineRxCapable ∧ t = { u with tx := { s.tx with stats := { s.tx.stats with
          readFailures := c, linkCheckFailed := (s.tx.stats.linkCheckFailed + 1) % 2 ^ s.params.statWidth } } })))

/-! ## The whole machine -/

/-- 41_event_queue.md section 3: a dispatch from a resting state ends in a resting state, and no dispatch at all makes
more than four entry actions: the model's fault for that is never raised (entry 32). -/
def Obligations.DispatchEndsAtRest : Prop :=
  (∀ (s t : State) (st : TxState) (e : TxEvent), s.tx.currentState = st.code → st.resting = true →
    txDispatch e s = .ok t →
    ∃ u : TxState, t.tx.currentState = u.code ∧ u.resting = true ∧ (txStateOf t.tx.previousState).isSome = true) ∧
  (∀ (s : State) (e : TxEvent), txDispatch e s ≠ .error .chainTooLong) ∧
  (∀ (s : State) (e : RxEvent), rxDispatch e s ≠ .error .chainTooLong)

/-- 44_rx_events.md section 3: a step of an Rx issues no `Platform` request, writes the port at `BKSV`, `RO` and (under
`DP`) `BSTATUS` only, arms no timer, and keeps no Tx register. -/
def Obligations.RxStaysWithinItsInterfaces : Prop :=
  ∀ s t : State, s.params.direction = .rx → step s = .next t →
    t.tx = s.tx ∧ (t.timer = s.timer ∨ t.timer = none) ∧
    ∃ rs, t.requests = s.requests ++ rs ∧
      ∀ r ∈ rs, (∀ ms, r ≠ .timerStart ms) ∧ r ≠ .timerStop ∧ (∀ ms, r ≠ .timerBusyDelay ms) ∧
        (∀ k, r ≠ .isKsvRevoked k) ∧
        ∀ o l, r = .portWrite o l →
          o = s.params.portMap.bksv ∨ o = s.params.portMap.ro ∨
            (o = s.params.portMap.bstatus ∧ s.params.protocol = .dp)

/-- The state after reset is sound (`State.sound` in Safety.lean), and its literals have the values the source states
(00_scope.md section 3). That reset is the power-on state, with the registers `CFGINIT` has not yet written at their reset
values, is the model's choice (entry 1). -/
def Obligations.ResetStateIsSound : Prop :=
  State.reset.sound ∧
  State.reset.params.literals =
    { tValidateRx := 100, tWaitReady := 5000, tSettle := 5, nRetry := 3, ksvBits := 40, ksvOnes := 20
      anFallback := 0x0351F7175406A74D#64, ksvBytes := 5, anBytes := 8, riRoBytes := 2, vPrimeWords := 5
      vPrimeWordBytes := 4, repInfoBytes := 2, moBytes := 8, pollCadenceMax := 10 }

/-- Every step keeps an instance sound: no reserved event bit pending, the state registers legal and the machine at rest,
`An` non-zero exactly during an attempt (43_tx_procedures.md section 5), every counter within its width, each callback
posting its own event, and the timer armed only in the two states that wait for it. How the timer and the callbacks are
held is the model's own (entries 10, 11). -/
def Obligations.StepKeepsInstanceSound : Prop :=
  ∀ s t : State, s.sound → step s = .next t → t.sound

end
end

