-- ==== Sys2Proof/Laws/State.lean ====
section
/-! SUPPORT. One lemma for each field and each update of State, so that no later proof unfolds a record update. -/

namespace Sys2Proof.Machine

/-! ## `setTx` -/

@[simp] theorem State.setTx_params (s : State) (r : TxRegs) : (s.setTx r).params = s.params := rfl
@[simp] theorem State.setTx_tx (s : State) (r : TxRegs) : (s.setTx r).tx = r := rfl
@[simp] theorem State.setTx_rx (s : State) (r : TxRegs) : (s.setTx r).rx = s.rx := rfl
@[simp] theorem State.setTx_pendingEvents (s : State) (r : TxRegs) : (s.setTx r).pendingEvents = s.pendingEvents := rfl
@[simp] theorem State.setTx_phyUp (s : State) (r : TxRegs) : (s.setTx r).phyUp = s.phyUp := rfl
@[simp] theorem State.setTx_ready (s : State) (r : TxRegs) : (s.setTx r).ready = s.ready := rfl
@[simp] theorem State.setTx_callbacks (s : State) (r : TxRegs) : (s.setTx r).callbacks = s.callbacks := rfl
@[simp] theorem State.setTx_timer (s : State) (r : TxRegs) : (s.setTx r).timer = s.timer := rfl
@[simp] theorem State.setTx_answers (s : State) (r : TxRegs) : (s.setTx r).answers = s.answers := rfl
@[simp] theorem State.setTx_draws (s : State) (r : TxRegs) : (s.setTx r).draws = s.draws := rfl
@[simp] theorem State.setTx_requests (s : State) (r : TxRegs) : (s.setTx r).requests = s.requests := rfl
@[simp] theorem State.setTx_inputs (s : State) (r : TxRegs) : (s.setTx r).inputs = s.inputs := rfl
@[simp] theorem State.setTx_arrivals (s : State) (r : TxRegs) : (s.setTx r).arrivals = s.arrivals := rfl
@[simp] theorem State.setTx_result (s : State) (r : TxRegs) : (s.setTx r).result = s.result := rfl

/-! ## `setRx` -/

@[simp] theorem State.setRx_params (s : State) (r : RxRegs) : (s.setRx r).params = s.params := rfl
@[simp] theorem State.setRx_tx (s : State) (r : RxRegs) : (s.setRx r).tx = s.tx := rfl
@[simp] theorem State.setRx_rx (s : State) (r : RxRegs) : (s.setRx r).rx = r := rfl
@[simp] theorem State.setRx_pendingEvents (s : State) (r : RxRegs) : (s.setRx r).pendingEvents = s.pendingEvents := rfl
@[simp] theorem State.setRx_phyUp (s : State) (r : RxRegs) : (s.setRx r).phyUp = s.phyUp := rfl
@[simp] theorem State.setRx_ready (s : State) (r : RxRegs) : (s.setRx r).ready = s.ready := rfl
@[simp] theorem State.setRx_callbacks (s : State) (r : RxRegs) : (s.setRx r).callbacks = s.callbacks := rfl
@[simp] theorem State.setRx_timer (s : State) (r : RxRegs) : (s.setRx r).timer = s.timer := rfl
@[simp] theorem State.setRx_answers (s : State) (r : RxRegs) : (s.setRx r).answers = s.answers := rfl
@[simp] theorem State.setRx_draws (s : State) (r : RxRegs) : (s.setRx r).draws = s.draws := rfl
@[simp] theorem State.setRx_requests (s : State) (r : RxRegs) : (s.setRx r).requests = s.requests := rfl
@[simp] theorem State.setRx_inputs (s : State) (r : RxRegs) : (s.setRx r).inputs = s.inputs := rfl
@[simp] theorem State.setRx_arrivals (s : State) (r : RxRegs) : (s.setRx r).arrivals = s.arrivals := rfl
@[simp] theorem State.setRx_result (s : State) (r : RxRegs) : (s.setRx r).result = s.result := rfl

/-! ## `setPending` -/

@[simp] theorem State.setPending_params (s : State) (p : Half) : (s.setPending p).params = s.params := rfl
@[simp] theorem State.setPending_tx (s : State) (p : Half) : (s.setPending p).tx = s.tx := rfl
@[simp] theorem State.setPending_rx (s : State) (p : Half) : (s.setPending p).rx = s.rx := rfl
@[simp] theorem State.setPending_pendingEvents (s : State) (p : Half) : (s.setPending p).pendingEvents = p := rfl
@[simp] theorem State.setPending_phyUp (s : State) (p : Half) : (s.setPending p).phyUp = s.phyUp := rfl
@[simp] theorem State.setPending_ready (s : State) (p : Half) : (s.setPending p).ready = s.ready := rfl
@[simp] theorem State.setPending_callbacks (s : State) (p : Half) : (s.setPending p).callbacks = s.callbacks := rfl
@[simp] theorem State.setPending_timer (s : State) (p : Half) : (s.setPending p).timer = s.timer := rfl
@[simp] theorem State.setPending_answers (s : State) (p : Half) : (s.setPending p).answers = s.answers := rfl
@[simp] theorem State.setPending_draws (s : State) (p : Half) : (s.setPending p).draws = s.draws := rfl
@[simp] theorem State.setPending_requests (s : State) (p : Half) : (s.setPending p).requests = s.requests := rfl
@[simp] theorem State.setPending_inputs (s : State) (p : Half) : (s.setPending p).inputs = s.inputs := rfl
@[simp] theorem State.setPending_arrivals (s : State) (p : Half) : (s.setPending p).arrivals = s.arrivals := rfl
@[simp] theorem State.setPending_result (s : State) (p : Half) : (s.setPending p).result = s.result := rfl

/-! ## `setPhyUp` -/

@[simp] theorem State.setPhyUp_params (s : State) (b : Bool) : (s.setPhyUp b).params = s.params := rfl
@[simp] theorem State.setPhyUp_tx (s : State) (b : Bool) : (s.setPhyUp b).tx = s.tx := rfl
@[simp] theorem State.setPhyUp_rx (s : State) (b : Bool) : (s.setPhyUp b).rx = s.rx := rfl
@[simp] theorem State.setPhyUp_pendingEvents (s : State) (b : Bool) : (s.setPhyUp b).pendingEvents = s.pendingEvents := rfl
@[simp] theorem State.setPhyUp_phyUp (s : State) (b : Bool) : (s.setPhyUp b).phyUp = b := rfl
@[simp] theorem State.setPhyUp_ready (s : State) (b : Bool) : (s.setPhyUp b).ready = s.ready := rfl
@[simp] theorem State.setPhyUp_callbacks (s : State) (b : Bool) : (s.setPhyUp b).callbacks = s.callbacks := rfl
@[simp] theorem State.setPhyUp_timer (s : State) (b : Bool) : (s.setPhyUp b).timer = s.timer := rfl
@[simp] theorem State.setPhyUp_answers (s : State) (b : Bool) : (s.setPhyUp b).answers = s.answers := rfl
@[simp] theorem State.setPhyUp_draws (s : State) (b : Bool) : (s.setPhyUp b).draws = s.draws := rfl
@[simp] theorem State.setPhyUp_requests (s : State) (b : Bool) : (s.setPhyUp b).requests = s.requests := rfl
@[simp] theorem State.setPhyUp_inputs (s : State) (b : Bool) : (s.setPhyUp b).inputs = s.inputs := rfl
@[simp] theorem State.setPhyUp_arrivals (s : State) (b : Bool) : (s.setPhyUp b).arrivals = s.arrivals := rfl
@[simp] theorem State.setPhyUp_result (s : State) (b : Bool) : (s.setPhyUp b).result = s.result := rfl

/-! ## `setReady` -/

@[simp] theorem State.setReady_params (s : State) (b : Bool) : (s.setReady b).params = s.params := rfl
@[simp] theorem State.setReady_tx (s : State) (b : Bool) : (s.setReady b).tx = s.tx := rfl
@[simp] theorem State.setReady_rx (s : State) (b : Bool) : (s.setReady b).rx = s.rx := rfl
@[simp] theorem State.setReady_pendingEvents (s : State) (b : Bool) : (s.setReady b).pendingEvents = s.pendingEvents := rfl
@[simp] theorem State.setReady_phyUp (s : State) (b : Bool) : (s.setReady b).phyUp = s.phyUp := rfl
@[simp] theorem State.setReady_ready (s : State) (b : Bool) : (s.setReady b).ready = b := rfl
@[simp] theorem State.setReady_callbacks (s : State) (b : Bool) : (s.setReady b).callbacks = s.callbacks := rfl
@[simp] theorem State.setReady_timer (s : State) (b : Bool) : (s.setReady b).timer = s.timer := rfl
@[simp] theorem State.setReady_answers (s : State) (b : Bool) : (s.setReady b).answers = s.answers := rfl
@[simp] theorem State.setReady_draws (s : State) (b : Bool) : (s.setReady b).draws = s.draws := rfl
@[simp] theorem State.setReady_requests (s : State) (b : Bool) : (s.setReady b).requests = s.requests := rfl
@[simp] theorem State.setReady_inputs (s : State) (b : Bool) : (s.setReady b).inputs = s.inputs := rfl
@[simp] theorem State.setReady_arrivals (s : State) (b : Bool) : (s.setReady b).arrivals = s.arrivals := rfl
@[simp] theorem State.setReady_result (s : State) (b : Bool) : (s.setReady b).result = s.result := rfl

/-! ## `setCallbacks` -/

@[simp] theorem State.setCallbacks_params (s : State) (c : Callbacks) : (s.setCallbacks c).params = s.params := rfl
@[simp] theorem State.setCallbacks_tx (s : State) (c : Callbacks) : (s.setCallbacks c).tx = s.tx := rfl
@[simp] theorem State.setCallbacks_rx (s : State) (c : Callbacks) : (s.setCallbacks c).rx = s.rx := rfl
@[simp] theorem State.setCallbacks_pendingEvents (s : State) (c : Callbacks) : (s.setCallbacks c).pendingEvents = s.pendingEvents := rfl
@[simp] theorem State.setCallbacks_phyUp (s : State) (c : Callbacks) : (s.setCallbacks c).phyUp = s.phyUp := rfl
@[simp] theorem State.setCallbacks_ready (s : State) (c : Callbacks) : (s.setCallbacks c).ready = s.ready := rfl
@[simp] theorem State.setCallbacks_callbacks (s : State) (c : Callbacks) : (s.setCallbacks c).callbacks = c := rfl
@[simp] theorem State.setCallbacks_timer (s : State) (c : Callbacks) : (s.setCallbacks c).timer = s.timer := rfl
@[simp] theorem State.setCallbacks_answers (s : State) (c : Callbacks) : (s.setCallbacks c).answers = s.answers := rfl
@[simp] theorem State.setCallbacks_draws (s : State) (c : Callbacks) : (s.setCallbacks c).draws = s.draws := rfl
@[simp] theorem State.setCallbacks_requests (s : State) (c : Callbacks) : (s.setCallbacks c).requests = s.requests := rfl
@[simp] theorem State.setCallbacks_inputs (s : State) (c : Callbacks) : (s.setCallbacks c).inputs = s.inputs := rfl
@[simp] theorem State.setCallbacks_arrivals (s : State) (c : Callbacks) : (s.setCallbacks c).arrivals = s.arrivals := rfl
@[simp] theorem State.setCallbacks_result (s : State) (c : Callbacks) : (s.setCallbacks c).result = s.result := rfl

/-! ## `setTimer` -/

@[simp] theorem State.setTimer_params (s : State) (t : Option Nat) : (s.setTimer t).params = s.params := rfl
@[simp] theorem State.setTimer_tx (s : State) (t : Option Nat) : (s.setTimer t).tx = s.tx := rfl
@[simp] theorem State.setTimer_rx (s : State) (t : Option Nat) : (s.setTimer t).rx = s.rx := rfl
@[simp] theorem State.setTimer_pendingEvents (s : State) (t : Option Nat) : (s.setTimer t).pendingEvents = s.pendingEvents := rfl
@[simp] theorem State.setTimer_phyUp (s : State) (t : Option Nat) : (s.setTimer t).phyUp = s.phyUp := rfl
@[simp] theorem State.setTimer_ready (s : State) (t : Option Nat) : (s.setTimer t).ready = s.ready := rfl
@[simp] theorem State.setTimer_callbacks (s : State) (t : Option Nat) : (s.setTimer t).callbacks = s.callbacks := rfl
@[simp] theorem State.setTimer_timer (s : State) (t : Option Nat) : (s.setTimer t).timer = t := rfl
@[simp] theorem State.setTimer_answers (s : State) (t : Option Nat) : (s.setTimer t).answers = s.answers := rfl
@[simp] theorem State.setTimer_draws (s : State) (t : Option Nat) : (s.setTimer t).draws = s.draws := rfl
@[simp] theorem State.setTimer_requests (s : State) (t : Option Nat) : (s.setTimer t).requests = s.requests := rfl
@[simp] theorem State.setTimer_inputs (s : State) (t : Option Nat) : (s.setTimer t).inputs = s.inputs := rfl
@[simp] theorem State.setTimer_arrivals (s : State) (t : Option Nat) : (s.setTimer t).arrivals = s.arrivals := rfl
@[simp] theorem State.setTimer_result (s : State) (t : Option Nat) : (s.setTimer t).result = s.result := rfl

/-! ## `setInputs` -/

@[simp] theorem State.setInputs_params (s : State) (l : List Input) : (s.setInputs l).params = s.params := rfl
@[simp] theorem State.setInputs_tx (s : State) (l : List Input) : (s.setInputs l).tx = s.tx := rfl
@[simp] theorem State.setInputs_rx (s : State) (l : List Input) : (s.setInputs l).rx = s.rx := rfl
@[simp] theorem State.setInputs_pendingEvents (s : State) (l : List Input) : (s.setInputs l).pendingEvents = s.pendingEvents := rfl
@[simp] theorem State.setInputs_phyUp (s : State) (l : List Input) : (s.setInputs l).phyUp = s.phyUp := rfl
@[simp] theorem State.setInputs_ready (s : State) (l : List Input) : (s.setInputs l).ready = s.ready := rfl
@[simp] theorem State.setInputs_callbacks (s : State) (l : List Input) : (s.setInputs l).callbacks = s.callbacks := rfl
@[simp] theorem State.setInputs_timer (s : State) (l : List Input) : (s.setInputs l).timer = s.timer := rfl
@[simp] theorem State.setInputs_answers (s : State) (l : List Input) : (s.setInputs l).answers = s.answers := rfl
@[simp] theorem State.setInputs_draws (s : State) (l : List Input) : (s.setInputs l).draws = s.draws := rfl
@[simp] theorem State.setInputs_requests (s : State) (l : List Input) : (s.setInputs l).requests = s.requests := rfl
@[simp] theorem State.setInputs_inputs (s : State) (l : List Input) : (s.setInputs l).inputs = l := rfl
@[simp] theorem State.setInputs_arrivals (s : State) (l : List Input) : (s.setInputs l).arrivals = s.arrivals := rfl
@[simp] theorem State.setInputs_result (s : State) (l : List Input) : (s.setInputs l).result = s.result := rfl

/-! ## `setArrivals` -/

@[simp] theorem State.setArrivals_params (s : State) (l : List (List Interrupt)) : (s.setArrivals l).params = s.params := rfl
@[simp] theorem State.setArrivals_tx (s : State) (l : List (List Interrupt)) : (s.setArrivals l).tx = s.tx := rfl
@[simp] theorem State.setArrivals_rx (s : State) (l : List (List Interrupt)) : (s.setArrivals l).rx = s.rx := rfl
@[simp] theorem State.setArrivals_pendingEvents (s : State) (l : List (List Interrupt)) : (s.setArrivals l).pendingEvents = s.pendingEvents := rfl
@[simp] theorem State.setArrivals_phyUp (s : State) (l : List (List Interrupt)) : (s.setArrivals l).phyUp = s.phyUp := rfl
@[simp] theorem State.setArrivals_ready (s : State) (l : List (List Interrupt)) : (s.setArrivals l).ready = s.ready := rfl
@[simp] theorem State.setArrivals_callbacks (s : State) (l : List (List Interrupt)) : (s.setArrivals l).callbacks = s.callbacks := rfl
@[simp] theorem State.setArrivals_timer (s : State) (l : List (List Interrupt)) : (s.setArrivals l).timer = s.timer := rfl
@[simp] theorem State.setArrivals_answers (s : State) (l : List (List Interrupt)) : (s.setArrivals l).answers = s.answers := rfl
@[simp] theorem State.setArrivals_draws (s : State) (l : List (List Interrupt)) : (s.setArrivals l).draws = s.draws := rfl
@[simp] theorem State.setArrivals_requests (s : State) (l : List (List Interrupt)) : (s.setArrivals l).requests = s.requests := rfl
@[simp] theorem State.setArrivals_inputs (s : State) (l : List (List Interrupt)) : (s.setArrivals l).inputs = s.inputs := rfl
@[simp] theorem State.setArrivals_arrivals (s : State) (l : List (List Interrupt)) : (s.setArrivals l).arrivals = l := rfl
@[simp] theorem State.setArrivals_result (s : State) (l : List (List Interrupt)) : (s.setArrivals l).result = s.result := rfl

/-! ## `setResult` -/

@[simp] theorem State.setResult_params (s : State) (r : Result) : (s.setResult r).params = s.params := rfl
@[simp] theorem State.setResult_tx (s : State) (r : Result) : (s.setResult r).tx = s.tx := rfl
@[simp] theorem State.setResult_rx (s : State) (r : Result) : (s.setResult r).rx = s.rx := rfl
@[simp] theorem State.setResult_pendingEvents (s : State) (r : Result) : (s.setResult r).pendingEvents = s.pendingEvents := rfl
@[simp] theorem State.setResult_phyUp (s : State) (r : Result) : (s.setResult r).phyUp = s.phyUp := rfl
@[simp] theorem State.setResult_ready (s : State) (r : Result) : (s.setResult r).ready = s.ready := rfl
@[simp] theorem State.setResult_callbacks (s : State) (r : Result) : (s.setResult r).callbacks = s.callbacks := rfl
@[simp] theorem State.setResult_timer (s : State) (r : Result) : (s.setResult r).timer = s.timer := rfl
@[simp] theorem State.setResult_answers (s : State) (r : Result) : (s.setResult r).answers = s.answers := rfl
@[simp] theorem State.setResult_draws (s : State) (r : Result) : (s.setResult r).draws = s.draws := rfl
@[simp] theorem State.setResult_requests (s : State) (r : Result) : (s.setResult r).requests = s.requests := rfl
@[simp] theorem State.setResult_inputs (s : State) (r : Result) : (s.setResult r).inputs = s.inputs := rfl
@[simp] theorem State.setResult_arrivals (s : State) (r : Result) : (s.setResult r).arrivals = s.arrivals := rfl
@[simp] theorem State.setResult_result (s : State) (r : Result) : (s.setResult r).result = some r := rfl

/-! ## `issue` -/

@[simp] theorem State.issue_params (s : State) (r : Request) : (s.issue r).params = s.params := rfl
@[simp] theorem State.issue_tx (s : State) (r : Request) : (s.issue r).tx = s.tx := rfl
@[simp] theorem State.issue_rx (s : State) (r : Request) : (s.issue r).rx = s.rx := rfl
@[simp] theorem State.issue_pendingEvents (s : State) (r : Request) : (s.issue r).pendingEvents = s.pendingEvents := rfl
@[simp] theorem State.issue_phyUp (s : State) (r : Request) : (s.issue r).phyUp = s.phyUp := rfl
@[simp] theorem State.issue_ready (s : State) (r : Request) : (s.issue r).ready = s.ready := rfl
@[simp] theorem State.issue_callbacks (s : State) (r : Request) : (s.issue r).callbacks = s.callbacks := rfl
@[simp] theorem State.issue_timer (s : State) (r : Request) : (s.issue r).timer = s.timer := rfl
@[simp] theorem State.issue_answers (s : State) (r : Request) : (s.issue r).answers = s.answers := rfl
@[simp] theorem State.issue_draws (s : State) (r : Request) : (s.issue r).draws = s.draws := rfl
@[simp] theorem State.issue_requests (s : State) (r : Request) : (s.issue r).requests = s.requests ++ [r] := rfl
@[simp] theorem State.issue_inputs (s : State) (r : Request) : (s.issue r).inputs = s.inputs := rfl
@[simp] theorem State.issue_arrivals (s : State) (r : Request) : (s.issue r).arrivals = s.arrivals := rfl
@[simp] theorem State.issue_result (s : State) (r : Request) : (s.issue r).result = s.result := rfl

/-! ## `takeAnswer` -/

@[simp] theorem State.takeAnswer_params (s : State) (a : Answers) : (s.takeAnswer a).params = s.params := rfl
@[simp] theorem State.takeAnswer_tx (s : State) (a : Answers) : (s.takeAnswer a).tx = s.tx := rfl
@[simp] theorem State.takeAnswer_rx (s : State) (a : Answers) : (s.takeAnswer a).rx = s.rx := rfl
@[simp] theorem State.takeAnswer_pendingEvents (s : State) (a : Answers) : (s.takeAnswer a).pendingEvents = s.pendingEvents := rfl
@[simp] theorem State.takeAnswer_phyUp (s : State) (a : Answers) : (s.takeAnswer a).phyUp = s.phyUp := rfl
@[simp] theorem State.takeAnswer_ready (s : State) (a : Answers) : (s.takeAnswer a).ready = s.ready := rfl
@[simp] theorem State.takeAnswer_callbacks (s : State) (a : Answers) : (s.takeAnswer a).callbacks = s.callbacks := rfl
@[simp] theorem State.takeAnswer_timer (s : State) (a : Answers) : (s.takeAnswer a).timer = s.timer := rfl
@[simp] theorem State.takeAnswer_answers (s : State) (a : Answers) : (s.takeAnswer a).answers = a := rfl
@[simp] theorem State.takeAnswer_draws (s : State) (a : Answers) : (s.takeAnswer a).draws = s.draws + 1 := rfl
@[simp] theorem State.takeAnswer_requests (s : State) (a : Answers) : (s.takeAnswer a).requests = s.requests := rfl
@[simp] theorem State.takeAnswer_inputs (s : State) (a : Answers) : (s.takeAnswer a).inputs = s.inputs := rfl
@[simp] theorem State.takeAnswer_arrivals (s : State) (a : Answers) : (s.takeAnswer a).arrivals = s.arrivals := rfl
@[simp] theorem State.takeAnswer_result (s : State) (a : Answers) : (s.takeAnswer a).result = s.result := rfl

/-! ## Updates that follow one another -/

@[simp] theorem State.setTx_setTx (s : State) (a b : TxRegs) : (s.setTx a).setTx b = s.setTx b := rfl
@[simp] theorem State.setRx_setRx (s : State) (a b : RxRegs) : (s.setRx a).setRx b = s.setRx b := rfl
@[simp] theorem State.setPending_setPending (s : State) (a b : Half) : (s.setPending a).setPending b = s.setPending b := rfl
@[simp] theorem State.setTx_self (s : State) : s.setTx s.tx = s := rfl
@[simp] theorem State.setRx_self (s : State) : s.setRx s.rx = s := rfl
@[simp] theorem State.setPending_self (s : State) : s.setPending s.pendingEvents = s := rfl
@[simp] theorem State.setPhyUp_self (s : State) : s.setPhyUp s.phyUp = s := rfl

/-! ## The monad of the procedures -/

@[simp] theorem ok_bind {ε α β : Type} (a : α) (f : α → Except ε β) : (Except.ok a >>= f) = f a := rfl
@[simp] theorem error_bind {ε α β : Type} (e : ε) (f : α → Except ε β) : (Except.error e >>= f) = Except.error e := rfl
@[simp] theorem map_ok {ε α β : Type} (a : α) (f : α → β) : (Except.ok a : Except ε α).map f = Except.ok (f a) := rfl
@[simp] theorem map_error {ε α β : Type} (e : ε) (f : α → β) : (Except.error e : Except ε α).map f = Except.error e := rfl

/-- A sequence that succeeds succeeds in its first part. -/
theorem bind_eq_ok {ε α β : Type} {x : Except ε α} {f : α → Except ε β} {b : β} (h : (x >>= f) = .ok b) :
    ∃ a, x = .ok a ∧ f a = .ok b := by
  cases x with
  | ok a => exact ⟨a, rfl, h⟩
  | error e => cases h

/-- A mapped success is a success. -/
theorem map_eq_ok {ε α β : Type} {x : Except ε α} {f : α → β} {b : β} (h : x.map f = .ok b) :
    ∃ a, x = .ok a ∧ f a = b := by
  cases x with
  | ok a => exact ⟨a, rfl, Except.ok.inj h⟩
  | error e => cases h

/-! ## Codes -/

@[simp] theorem txStateOf_code (st : TxState) : txStateOf st.code = some st := by cases st <;> rfl
@[simp] theorem rxStateOf_code (st : RxState) : rxStateOf st.code = some st := by cases st <;> rfl

/-- A legal Tx encoding is its state's. -/
theorem code_of_txStateOf : ∀ (c : BitVec 4) (st : TxState), txStateOf c = some st → c = st.code := by decide

/-- A legal Rx encoding is its state's. -/
theorem code_of_rxStateOf : ∀ (c : BitVec 3) (st : RxState), rxStateOf c = some st → c = st.code := by decide

/-- Different Tx states have different encodings. -/
theorem TxState.code_inj {a b : TxState} (h : a.code = b.code) : a = b := by
  have := congrArg txStateOf h
  simpa using this

/-- Different Rx states have different encodings. -/
theorem RxState.code_inj {a b : RxState} (h : a.code = b.code) : a = b := by
  have := congrArg rxStateOf h
  simpa using this

@[simp] theorem TxState.code_eq_iff (a b : TxState) : a.code = b.code ↔ a = b := ⟨TxState.code_inj, congrArg _⟩
@[simp] theorem RxState.code_eq_iff (a b : RxState) : a.code = b.code ↔ a = b := ⟨RxState.code_inj, congrArg _⟩

end Sys2Proof.Machine
end

