-- ==== Sys2Proof/Laws/Ops.lean ====
section
/-! SUPPORT. What each shared operation of Machine/Ops.lean and Machine/Flags.lean can do, said once. -/

namespace Sys2Proof.Machine

/-! ## `State.asks` -/

theorem State.asks_refl (s : State) : s.asks s := ⟨s.answers, s.draws, [], by simp⟩

theorem State.asks_trans {s t u : State} (h : s.asks t) (g : t.asks u) : s.asks u := by
  obtain ⟨a, d, rs, rfl⟩ := h
  obtain ⟨a', d', rs', rfl⟩ := g
  exact ⟨a', d', rs ++ rs', by simp⟩

theorem State.asks_issue (s : State) (r : Request) : s.asks (s.issue r) := ⟨s.answers, s.draws, [r], rfl⟩

/-- Asking leaves the registers and the parameters alone. -/
theorem State.asks_tx {s t : State} (h : s.asks t) : t.tx = s.tx := by
  obtain ⟨a, d, rs, rfl⟩ := h; rfl

theorem State.asks_rx {s t : State} (h : s.asks t) : t.rx = s.rx := by
  obtain ⟨a, d, rs, rfl⟩ := h; rfl

theorem State.asks_params {s t : State} (h : s.asks t) : t.params = s.params := by
  obtain ⟨a, d, rs, rfl⟩ := h; rfl

theorem State.asks_takeAnswer (s : State) (a : Answers) : s.asks (s.takeAnswer a) :=
  ⟨a, s.draws + 1, [], by simp [State.takeAnswer]⟩

/-- A draw takes one answer and does nothing else. -/
theorem State.draw_spec {α : Type} (s : State) (l : List α) (keep : List α → Answers) (free : Nat → α) :
    (s.draw l keep free = (free s.draws, s.takeAnswer s.answers) ∧ l = []) ∨
      ∃ a rest, l = a :: rest ∧ s.draw l keep free = (a, s.takeAnswer (keep rest)) := by
  cases l with
  | nil => exact .inl ⟨rfl, rfl⟩
  | cons a rest => exact .inr ⟨a, rest, rfl, rfl⟩

@[simp] theorem State.draw_cons {α : Type} (s : State) (a : α) (rest : List α) (keep : List α → Answers)
    (free : Nat → α) : s.draw (a :: rest) keep free = (a, s.takeAnswer (keep rest)) := rfl

@[simp] theorem State.draw_nil {α : Type} (s : State) (keep : List α → Answers) (free : Nat → α) :
    s.draw [] keep free = (free s.draws, s.takeAnswer s.answers) := rfl

theorem State.asks_draw {α : Type} (s : State) (l : List α) (keep : List α → Answers) (free : Nat → α) :
    s.asks (s.draw l keep free).2 := by
  cases l <;> exact s.asks_takeAnswer _

theorem State.asks_issue_draw {α : Type} (s : State) (r : Request) (l : List α) (keep : List α → Answers)
    (free : Nat → α) : s.asks ((s.issue r).draw l keep free).2 :=
  State.asks_trans (s.asks_issue r) (State.asks_draw _ _ _ _)

/-! ## Port -/

/-- A transfer that does not fault succeeded exactly when the counts agree (20_memory.md R64, R65). -/
theorem transferred_spec {n : Nat} {k : Int} {b : Bool} (h : transferred n k = .ok b) :
    k ≤ n ∧ (b = true ↔ k = n) := by
  unfold transferred at h
  split at h
  · cases h
  · cases h
    exact ⟨by omega, by simp⟩

@[simp] theorem delivered_length (n : Nat) (l : List Byte) (c : Nat) : (delivered n l c).length = n := by
  simp [delivered]

/-- A complete answer is delivered as it is. -/
theorem delivered_eq (l : List Byte) (c : Nat) : delivered l.length l c = l := by
  apply List.ext_getElem
  · simp
  · intro i h1 h2
    simp [delivered, List.getD_eq_getElem?_getD, h2]

/-- A read that answers gives `n` bytes or none, and only asks (20_memory.md R64). -/
theorem State.portRead_spec {s t : State} {off : Byte} {n : Nat} {r : Option (List Byte)}
    (h : s.portRead off n = .ok (r, t)) : s.asks t ∧ ∀ b, r = some b → b.length = n := by
  unfold State.portRead at h
  obtain ⟨ok, -, h⟩ := bind_eq_ok h
  cases h
  refine ⟨State.asks_issue_draw _ _ _ _ _, fun b hb => ?_⟩
  split at hb
  · cases hb; simp
  · cases hb

/-- A write only asks (20_memory.md R65). -/
theorem State.portWrite_spec {s t : State} {off : Byte} {bytes : List Byte} {ok : Bool}
    (h : s.portWrite off bytes = .ok (ok, t)) : s.asks t := by
  unfold State.portWrite at h
  obtain ⟨b, -, h⟩ := bind_eq_ok h
  cases h
  exact State.asks_issue_draw _ _ _ _ _

theorem State.asks_portIsCapable (s : State) : s.asks s.portIsCapable.2 := State.asks_issue_draw _ _ _ _ _
theorem State.asks_portIsRepeater (s : State) : s.asks s.portIsRepeater.2 := State.asks_issue_draw _ _ _ _ _
theorem State.asks_portGetRepeaterInfo (s : State) : s.asks s.portGetRepeaterInfo.2 := State.asks_issue_draw _ _ _ _ _

/-! ## Cipher -/

theorem State.asks_cipherGetRi (s : State) : s.asks s.cipherGetRi.2 := State.asks_issue_draw _ _ _ _ _
theorem State.asks_cipherGetRo (s : State) : s.asks s.cipherGetRo.2 := State.asks_issue_draw _ _ _ _ _
theorem State.asks_cipherGetMi (s : State) : s.asks s.cipherGetMi.2 := State.asks_issue_draw _ _ _ _ _
theorem State.asks_cipherGetMo (s : State) : s.asks s.cipherGetMo.2 := State.asks_issue_draw _ _ _ _ _
theorem State.asks_cipherGetLocalKsv (s : State) : s.asks s.cipherGetLocalKsv.2 := State.asks_issue_draw _ _ _ _ _
theorem State.asks_cipherGetEncryption (s : State) : s.asks s.cipherGetEncryption.2 :=
  State.asks_issue_draw _ _ _ _ _
theorem State.asks_cipherIsLinkUp (s : State) : s.asks s.cipherIsLinkUp.2 := State.asks_issue_draw _ _ _ _ _
theorem State.asks_cipherIsRequestComplete (s : State) : s.asks s.cipherIsRequestComplete.2 :=
  State.asks_issue_draw _ _ _ _ _

theorem State.asks_queryComplete (n : Nat) (s : State) : s.asks (s.queryComplete n) := by
  induction n generalizing s with
  | zero => exact s.asks_refl
  | succ n ih =>
    exact State.asks_trans (State.asks_trans (s.asks_issue _) (State.asks_takeAnswer _ _)) (ih _)

/-- Waiting for the cipher only asks (43_tx_procedures.md R213). -/
theorem State.awaitCipher_spec {l : List Bool} {s t : State} (h : State.awaitCipher l s = .ok t) : s.asks t := by
  induction l generalizing s with
  | nil =>
    unfold State.awaitCipher at h
    split at h
    · cases h; exact State.asks_queryComplete _ _
    · cases h
  | cons d l ih =>
    unfold State.awaitCipher at h
    have hs : s.asks ((s.issue .cipherIsRequestComplete).takeAnswer { s.answers with complete := l }) :=
      State.asks_trans (s.asks_issue _) (State.asks_takeAnswer _ _)
    simp only at h
    split at h
    · cases h; exact hs
    · exact State.asks_trans hs (ih h)

/-! ## Platform -/

theorem State.asks_isKsvRevoked (s : State) (k : Wide) : s.asks (s.isKsvRevoked k).2 := by
  unfold State.isKsvRevoked
  split
  · exact State.asks_issue_draw _ _ _ _ _
  · exact s.asks_refl

/-- A busy delay only asks (20_memory.md R69). -/
theorem State.busyDelay_spec {s t : State} {ms : Nat} (h : s.busyDelay ms = .ok t) : s.asks t := by
  unfold State.busyDelay at h
  split at h
  · simp only at h
    split at h
    · cases h; exact State.asks_issue_draw _ _ _ _ _
    · cases h
  · cases h; exact s.asks_refl

/-! ## The command frame -/

/-- What a command can do: fail with nothing changed, or end its body (40_commands.md R120). -/
theorem commandFrame_cases {body : State → Except Fault (Result × State)} {s t : State}
    (h : commandFrame body s = .next t) :
    (t = s.setResult .failure ∧ ¬ s.accepts) ∨ (s.accepts ∧ ∃ r u, body s = .ok (r, u) ∧ t = u.setResult r) := by
  unfold commandFrame commandFailure finish at h
  unfold State.accepts
  split at h
  · next hr =>
    split at h
    · next hp =>
      split at h
      · next r u hb => cases h; exact .inr ⟨⟨hr, hp⟩, r, u, hb, rfl⟩
      · cases h
    · next hp => cases h; exact .inl ⟨rfl, fun c => hp c.2⟩
  · next hr => cases h; exact .inl ⟨rfl, fun c => hr c.1⟩

/-- What `CFGINIT`'s frame can do (40_commands.md R120). -/
theorem initFrame_cases {body : State → Except Fault (Result × State)} {s t : State}
    (h : initFrame body s = .next t) :
    (t = s.setResult .failure ∧ Params.directionPresent s.params = false) ∨
      (Params.directionPresent s.params = true ∧ ∃ r u, body s = .ok (r, u) ∧ t = u.setResult r) := by
  unfold initFrame commandFailure finish at h
  split at h
  · next hp =>
    split at h
    · next r u hb => cases h; exact .inr ⟨hp, r, u, hb, rfl⟩
    · cases h
  · next hp => cases h; exact .inl ⟨rfl, by simpa using hp⟩

/-- What an event row can do (41_event_queue.md R156). -/
theorem eventFrame_cases {d : Direction} {run : State → Except Fault State} {s t : State}
    (h : eventFrame d run s = .next t) : s.params.direction = d ∧ run s = .ok t := by
  unfold eventFrame at h
  split at h
  · next hd =>
    split at h
    · next u hu => cases h; exact ⟨hd, hu⟩
    · cases h
  · cases h

/-- A body that ends in `SUCCESS`. -/
theorem succeed_eq_ok {r : Except Fault State} {v : Result} {u : State} (h : succeed r = .ok (v, u)) :
    v = .success ∧ r = .ok u := by
  cases r with
  | ok a => cases h; exact ⟨rfl, rfl⟩
  | error e => cases h

/-! ## Posting and interrupts -/

/-- A post writes `PendingEvents` only (41_event_queue.md R151). -/
theorem State.post_eq (s : State) (e : Event) : s.post e = s.setPending (postedTo s.pendingEvents e) := rfl

@[simp] theorem half_and_ones (x : Half) : x &&& 0xFFFF#16 = x := BitVec.and_allOnes

/-- A post that suppresses nothing only sets its bit (41_event_queue.md R152). -/
theorem postedTo_unsuppressed {p : Half} {e : Event} (h : e.suppressed = 0#16) : postedTo p e = p ||| e.mask := by
  simp [postedTo, h]

/-- A callback posts or does nothing. -/
theorem State.callback_eq (s : State) (r : Option Event) : ∃ p, s.callback r = s.setPending p := by
  cases r with
  | none => exact ⟨s.pendingEvents, rfl⟩
  | some e => exact ⟨postedTo s.pendingEvents e, rfl⟩

/-- An expiry disarms the timer and writes `PendingEvents`, nothing else. -/
theorem State.expire_eq (s : State) : s.expire = s ∨ ∃ p, s.expire = (s.setTimer none).setPending p := by
  unfold State.expire
  split
  · right
    simp only
    split
    · unfold State.postTimeout
      split
      · exact ⟨_, rfl⟩
      · exact ⟨s.pendingEvents, rfl⟩
    · exact ⟨s.pendingEvents, rfl⟩
  · exact .inl rfl

/-- An interrupt writes `PendingEvents`, and may disarm the timer, nothing else (60_exceptions.md R331). -/
theorem State.takeInterrupt_eq (s : State) (i : Interrupt) :
    ∃ p t, s.takeInterrupt i = (s.setTimer t).setPending p ∧ (t = s.timer ∨ t = none) := by
  cases i with
  | timerExpiry =>
    rcases s.expire_eq with h | ⟨p, h⟩
    · exact ⟨s.pendingEvents, s.timer, h, .inl rfl⟩
    · exact ⟨p, none, h, .inr rfl⟩
  | portReauth =>
    obtain ⟨p, h⟩ := s.callback_eq s.callbacks.portAuth
    exact ⟨p, s.timer, h, .inl rfl⟩
  | cipherRiUpdate =>
    obtain ⟨p, h⟩ := s.callback_eq s.callbacks.riUpdate
    exact ⟨p, s.timer, h, .inl rfl⟩
  | cipherLinkFail =>
    obtain ⟨p, h⟩ := s.callback_eq s.callbacks.linkFail
    exact ⟨p, s.timer, h, .inl rfl⟩

theorem State.foldInterrupts_eq (l : List Interrupt) (s : State) :
    ∃ p t, l.foldl State.takeInterrupt s = (s.setTimer t).setPending p ∧ (t = s.timer ∨ t = none) := by
  induction l generalizing s with
  | nil => exact ⟨s.pendingEvents, s.timer, rfl, .inl rfl⟩
  | cons i l ih =>
    obtain ⟨p, t, h, ht⟩ := s.takeInterrupt_eq i
    obtain ⟨p', t', h', ht'⟩ := ih (s.takeInterrupt i)
    refine ⟨p', t', ?_, ?_⟩
    · simp only [List.foldl_cons, h'] ; rw [h]; rfl
    · rw [h] at ht'
      simp at ht'
      rcases ht' with rfl | rfl
      · exact ht
      · exact .inr rfl

/-- An interruption point takes its list and writes `PendingEvents` and the timer, nothing else (41_event_queue.md
R155). -/
theorem State.arrive_eq (s : State) :
    ∃ p t l, s.arrive = ((s.setArrivals l).setTimer t).setPending p ∧ (t = s.timer ∨ t = none) := by
  unfold State.arrive
  split
  · exact ⟨s.pendingEvents, s.timer, s.arrivals, rfl, .inl rfl⟩
  · next now later _ =>
    obtain ⟨p, t, h, ht⟩ := State.foldInterrupts_eq now (s.setArrivals later)
    exact ⟨p, t, later, h, ht⟩

/-- With no interrupt to come, an interruption point does nothing. -/
theorem State.arrive_undisturbed {s : State} (h : s.arrivals = []) : s.arrive = s := by
  unfold State.arrive; rw [h]

end Sys2Proof.Machine
end

