-- ==== Sys2Proof/Laws/Rx.lean ====
section
/-! SUPPORT. What the receiver's procedures can do (44_rx_events.md, 45_linkcheck.md), said once for each. -/

namespace Sys2Proof.Machine

/-- `PublishRiRo` only asks (45_linkcheck.md R294). -/
theorem publishRiRo_spec {s t : State} (h : publishRiRo s = .ok t) : s.asks t := by
  unfold publishRiRo at h
  obtain ⟨⟨_, s1⟩, h1, h⟩ := bind_eq_ok h
  cases h
  refine State.asks_trans ?_ (State.portWrite_spec h1)
  cases s.params.protocol
  · exact s.asks_cipherGetRi
  · exact s.asks_cipherGetRo

/-- `UpdateRi` asks and counts one update (45_linkcheck.md R295). -/
theorem updateRi_spec {s t : State} (h : updateRi s = .ok t) :
    ∃ u, s.asks u ∧ t = u.setRx { s.rx with riUpdates := bump s.params.statWidth s.rx.riUpdates } := by
  unfold updateRi at h
  obtain ⟨⟨_, s1⟩, h1, h⟩ := bind_eq_ok h
  cases h
  have a := State.asks_trans s.asks_cipherGetRi (State.portWrite_spec h1)
  refine ⟨s1, a, ?_⟩
  obtain ⟨x, d, rs, rfl⟩ := a
  rfl

/-- `SetDpLinkFailure` only asks (45_linkcheck.md R298). -/
theorem setDpLinkFailure_spec {s t : State} (h : setDpLinkFailure s = .ok t) : s.asks t := by
  unfold setDpLinkFailure at h
  obtain ⟨⟨r, s1⟩, h1, h⟩ := bind_eq_ok h
  have a1 := (State.portRead_spec h1).1
  cases r with
  | none => cases h; exact a1
  | some b =>
    obtain ⟨⟨_, s2⟩, h2, h⟩ := bind_eq_ok h
    cases h
    exact State.asks_trans a1 (State.portWrite_spec h2)

/-- `CheckLinkIntegrity` only asks and chooses `AUTHENTICATED` or `LINK_INTEGRITY_FAILED` (45_linkcheck.md R296). -/
theorem checkLinkIntegrity_spec {s t : State} {n : RxState} (h : checkLinkIntegrity s = .ok (n, t)) :
    s.asks t ∧ (n = .authenticated ∨ n = .linkIntegrityFailed) := by
  unfold checkLinkIntegrity at h
  simp only at h
  split at h
  · cases h; exact ⟨s.asks_cipherIsLinkUp, .inl rfl⟩
  · split at h
    · obtain ⟨u, hu, h⟩ := bind_eq_ok h
      cases h
      exact ⟨State.asks_trans s.asks_cipherIsLinkUp (setDpLinkFailure_spec hu), .inr rfl⟩
    · cases h; exact ⟨s.asks_cipherIsLinkUp, .inr rfl⟩

/-- `RxArmLinkCheck` only asks (45_linkcheck.md R297). -/
theorem rxArmLinkCheck_spec (s : State) : s.asks (rxArmLinkCheck s) := by
  unfold rxArmLinkCheck
  split
  · exact s.asks_refl
  · cases s.params.protocol <;> exact s.asks_issue _

theorem rxLocalKsv_spec (s : State) : s.asks (rxLocalKsv s).2 := by
  unfold rxLocalKsv
  simp only
  split
  · exact State.asks_trans s.asks_cipherGetLocalKsv (State.asks_cipherGetLocalKsv _)
  · exact s.asks_cipherGetLocalKsv

/-- `RxStartComputations` only asks and chooses `COMPUTATIONS` or `UNAUTHENTICATED` (44_rx_events.md R262). -/
theorem rxStartComputations_spec {s t : State} {n : RxState} (h : rxStartComputations s = .ok (n, t)) :
    s.asks t ∧ (n = .computations ∨ n = .unauthenticated) := by
  unfold rxStartComputations at h
  obtain ⟨⟨r, s1⟩, h1, h⟩ := bind_eq_ok h
  have a1 := (State.portRead_spec h1).1
  cases r with
  | none => cases h; exact ⟨a1, .inr rfl⟩
  | some b1 =>
    obtain ⟨⟨r2, s2⟩, h2, h⟩ := bind_eq_ok h
    have a2 := State.asks_trans a1 (State.portRead_spec h2).1
    cases r2 with
    | none => cases h; exact ⟨a2, .inr rfl⟩
    | some b2 =>
      cases h
      exact ⟨State.asks_trans (State.asks_trans (State.asks_trans (State.asks_trans a2 (State.asks_issue _ _))
        (State.asks_portIsRepeater _)) (State.asks_issue _ _)) (State.asks_issue _ _), .inl rfl⟩

/-- The exit of Rx `DISABLED` asks and registers the three callbacks (44_rx_events.md R261). -/
theorem rxExitDisabled_spec {s t : State} (h : rxExitDisabled s = .ok t) :
    ∃ a d rs, t = { s with
                    answers := a, draws := d, requests := s.requests ++ rs
                    callbacks := { linkFail := some (.rx .check), riUpdate := some (.rx .updateRi)
                                   portAuth := some (.rx .authenticate) } } := by
  unfold rxExitDisabled at h
  obtain ⟨⟨b, s1⟩, h1, h⟩ := bind_eq_ok h
  cases h
  obtain ⟨a, d, rs, e⟩ := State.asks_trans (rxLocalKsv_spec _) (State.portWrite_spec h1)
  rw [e]
  exact ⟨a, d, [.cipherSetLinkStateCheck false, .cipherSetRiUpdate false, .cipherSetLinkFailCallback (.rx .check),
      .cipherSetRiUpdateCallback (.rx .updateRi), .cipherEnable] ++ rs ++
        [.portSetAuthCallback (.rx .authenticate), .portEnable], by
    simp [State.cipherSetLinkFailCallback, State.cipherSetRiUpdateCallback, State.portSetAuthCallback,
      State.issue, State.setCallbacks]⟩

end Sys2Proof.Machine
end

