-- ==== Sys2Proof/Laws/RxDispatch.lean ====
section
/-! SUPPORT. What the receiver's actions, runs and dispatch loop can do, said once for each (44_rx_events.md,
41_event_queue.md R156 to R158). -/

namespace Sys2Proof.Machine

/-- The requests an Rx may issue in a dispatch: none to the Platform, and port writes at `BKSV`, `RO` and (`DP`)
`BSTATUS` only (44_rx_events.md R265). -/
def rxAllowed (p : Params) (r : Request) : Prop :=
  (∀ ms, r ≠ .timerStart ms) ∧ r ≠ .timerStop ∧ (∀ ms, r ≠ .timerBusyDelay ms) ∧ (∀ k, r ≠ .isKsvRevoked k) ∧
    ∀ o l, r = .portWrite o l →
      o = p.portMap.bksv ∨ o = p.portMap.ro ∨ (o = p.portMap.bstatus ∧ p.protocol = .dp)

/-- `t` is `s` after some part of an Rx dispatch. -/
def State.rxEvolves (s t : State) : Prop :=
  ∃ (a : Answers) (d : Nat) (rs : List Request) (r : RxRegs) (b : Bool) (c : Callbacks),
    t = { s with answers := a, draws := d, requests := s.requests ++ rs, rx := r, phyUp := b, callbacks := c } ∧
    (∀ q ∈ rs, rxAllowed s.params q) ∧ (c = s.callbacks ∨ c = rxCallbacks) ∧
    (s.rx.riUpdates < 2 ^ s.params.statWidth → r.riUpdates < 2 ^ s.params.statWidth)

theorem State.rxEvolves_refl (s : State) : s.rxEvolves s :=
  ⟨s.answers, s.draws, [], s.rx, s.phyUp, s.callbacks, by simp, by simp, .inl rfl, id⟩

theorem State.rxEvolves_trans {s t u : State} (h : s.rxEvolves t) (g : t.rxEvolves u) : s.rxEvolves u := by
  obtain ⟨a, d, rs, r, b, c, rfl, h1, h2, h3⟩ := h
  obtain ⟨a', d', rs', r', b', c', rfl, g1, g2, g3⟩ := g
  refine ⟨a', d', rs ++ rs', r', b', c', by simp, ?_, ?_, fun h => g3 (h3 h)⟩
  · intro q hq
    rcases List.mem_append.mp hq with hq | hq
    · exact h1 q hq
    · exact g1 q hq
  · rcases g2 with rfl | rfl
    · exact h2
    · exact .inr rfl

theorem State.rxEvolves_issue (s : State) (r : Request) (h : rxAllowed s.params r) : s.rxEvolves (s.issue r) :=
  ⟨s.answers, s.draws, [r], s.rx, s.phyUp, s.callbacks, rfl, by simpa using h, .inl rfl, id⟩

theorem State.rxEvolves_takeAnswer (s : State) (a : Answers) : s.rxEvolves (s.takeAnswer a) :=
  ⟨a, s.draws + 1, [], s.rx, s.phyUp, s.callbacks, by simp [State.takeAnswer], by simp, .inl rfl, id⟩

theorem State.rxEvolves_draw {α : Type} (s : State) (r : Request) (h : rxAllowed s.params r) (l : List α)
    (keep : List α → Answers) (free : Nat → α) : s.rxEvolves ((s.issue r).draw l keep free).2 := by
  cases l with
  | nil => exact State.rxEvolves_trans (s.rxEvolves_issue r h) (State.rxEvolves_takeAnswer _ _)
  | cons x xs => exact State.rxEvolves_trans (s.rxEvolves_issue r h) (State.rxEvolves_takeAnswer _ _)

theorem State.rxEvolves_params {s t : State} (h : s.rxEvolves t) : t.params = s.params := by
  obtain ⟨a, d, rs, r, b, c, rfl, -⟩ := h; rfl

theorem State.rxEvolves_tx {s t : State} (h : s.rxEvolves t) : t.tx = s.tx := by
  obtain ⟨a, d, rs, r, b, c, rfl, -⟩ := h; rfl

theorem State.rxEvolves_arrivals {s t : State} (h : s.rxEvolves t) : t.arrivals = s.arrivals := by
  obtain ⟨a, d, rs, r, b, c, rfl, -⟩ := h; rfl

theorem State.rxEvolves_ready {s t : State} (h : s.rxEvolves t) : t.ready = s.ready := by
  obtain ⟨a, d, rs, r, b, c, rfl, -⟩ := h; rfl

theorem State.rxEvolves_timer {s t : State} (h : s.rxEvolves t) : t.timer = s.timer := by
  obtain ⟨a, d, rs, r, b, c, rfl, -⟩ := h; rfl

theorem State.rxEvolves_pending {s t : State} (h : s.rxEvolves t) : t.pendingEvents = s.pendingEvents := by
  obtain ⟨a, d, rs, r, b, c, rfl, -⟩ := h; rfl

theorem State.rxEvolves_fits {s t : State} (h : s.rxEvolves t) (f : s.rx.riUpdates < 2 ^ s.params.statWidth) :
    t.rx.riUpdates < 2 ^ t.params.statWidth := by
  obtain ⟨a, d, rs, r, b, c, rfl, -, -, h⟩ := h; exact h f

/-- A read is allowed to an Rx. -/
theorem rxAllowed_read (p : Params) (o : Byte) (n : Nat) : rxAllowed p (.portRead o n) := by simp [rxAllowed]

/-- A write of `RO` is allowed to an Rx. -/
theorem rxAllowed_ro (p : Params) (l : List Byte) : rxAllowed p (.portWrite p.portMap.ro l) := by
  simp [rxAllowed]

/-- A write of `BKSV` is allowed to an Rx. -/
theorem rxAllowed_bksv (p : Params) (l : List Byte) : rxAllowed p (.portWrite p.portMap.bksv l) := by
  simp [rxAllowed]

theorem State.portRead_rxEvolves {s t : State} {off : Byte} {n : Nat} {r : Option (List Byte)}
    (h : s.portRead off n = .ok (r, t)) : s.rxEvolves t := by
  unfold State.portRead at h
  obtain ⟨ok, -, h⟩ := bind_eq_ok h
  cases h
  exact State.rxEvolves_draw _ _ (rxAllowed_read _ _ _) _ _ _

theorem State.portWrite_rxEvolves {s t : State} {off : Byte} {bytes : List Byte} {ok : Bool}
    (h : s.portWrite off bytes = .ok (ok, t)) (g : rxAllowed s.params (.portWrite off bytes)) : s.rxEvolves t := by
  unfold State.portWrite at h
  obtain ⟨b, -, h⟩ := bind_eq_ok h
  cases h
  exact State.rxEvolves_draw _ _ g _ _ _

/-- What an action of the Rx leaves alone: the state registers. -/
def State.rxKeeps (s t : State) : Prop :=
  s.rxEvolves t ∧ t.rx.currentState = s.rx.currentState ∧ t.rx.previousState = s.rx.previousState

theorem State.rxKeeps_refl (s : State) : s.rxKeeps s := ⟨s.rxEvolves_refl, rfl, rfl⟩

theorem State.rxKeeps_trans {s t u : State} (h : s.rxKeeps t) (g : t.rxKeeps u) : s.rxKeeps u :=
  ⟨State.rxEvolves_trans h.1 g.1, g.2.1.trans h.2.1, g.2.2.trans h.2.2⟩

theorem State.rxKeeps_of {s t : State} (h : s.rxEvolves t) (e : t.rx = s.rx) : s.rxKeeps t := ⟨h, by rw [e], by rw [e]⟩

theorem publishRiRo_keeps {s t : State} (h : publishRiRo s = .ok t) : s.rxKeeps t := by
  have e := State.asks_rx (publishRiRo_spec h)
  refine State.rxKeeps_of ?_ e
  unfold publishRiRo at h
  obtain ⟨⟨_, s1⟩, h1, h⟩ := bind_eq_ok h
  cases h
  cases hp : s.params.protocol
  · rw [hp] at h1
    have v : s.rxEvolves s.cipherGetRi.2 := State.rxEvolves_draw _ _ (by simp [rxAllowed]) _ _ _
    exact State.rxEvolves_trans v (State.portWrite_rxEvolves h1 (by
      rw [State.rxEvolves_params v]; exact rxAllowed_ro _ _))
  · rw [hp] at h1
    have v : s.rxEvolves s.cipherGetRo.2 := State.rxEvolves_draw _ _ (by simp [rxAllowed]) _ _ _
    exact State.rxEvolves_trans v (State.portWrite_rxEvolves h1 (by
      rw [State.rxEvolves_params v]; exact rxAllowed_ro _ _))

theorem setDpLinkFailure_keeps {s t : State} (h : setDpLinkFailure s = .ok t) (hp : s.params.protocol = .dp) :
    s.rxKeeps t := by
  have e := State.asks_rx (setDpLinkFailure_spec h)
  refine State.rxKeeps_of ?_ e
  unfold setDpLinkFailure at h
  obtain ⟨⟨r, s1⟩, h1, h⟩ := bind_eq_ok h
  have v1 := State.portRead_rxEvolves h1
  cases r with
  | none => cases h; exact v1
  | some b =>
    obtain ⟨⟨_, s2⟩, h2, h⟩ := bind_eq_ok h
    cases h
    refine State.rxEvolves_trans v1 (State.portWrite_rxEvolves h2 ?_)
    rw [State.rxEvolves_params v1]
    simp [rxAllowed, hp]

theorem checkLinkIntegrity_keeps {s t : State} {n : RxState} (h : checkLinkIntegrity s = .ok (n, t)) : s.rxKeeps t := by
  have v0 : s.rxKeeps s.cipherIsLinkUp.2 := State.rxKeeps_of (State.rxEvolves_draw _ _ (by simp [rxAllowed]) _ _ _)
    (State.asks_rx s.asks_cipherIsLinkUp)
  unfold checkLinkIntegrity at h
  simp only at h
  split at h
  · cases h; exact v0
  · split at h
    · next hp =>
      obtain ⟨u, hu, h⟩ := bind_eq_ok h
      cases h
      exact State.rxKeeps_trans v0 (setDpLinkFailure_keeps hu (by rw [State.rxEvolves_params v0.1]; exact hp))
    · cases h; exact v0

theorem updateRi_keeps {s t : State} (h : updateRi s = .ok t) : s.rxKeeps t := by
  unfold updateRi at h
  obtain ⟨⟨_, s1⟩, h1, h⟩ := bind_eq_ok h
  cases h
  have a0 := s.asks_cipherGetRi
  have v : s.rxEvolves s.cipherGetRi.2 := State.rxEvolves_draw _ _ (by simp [rxAllowed]) _ _ _
  have v1 : s.rxEvolves s1 := State.rxEvolves_trans v (State.portWrite_rxEvolves h1 (by
    rw [State.rxEvolves_params v]; exact rxAllowed_ro _ _))
  have e := (State.asks_rx (State.portWrite_spec h1)).trans (State.asks_rx a0)
  refine State.rxKeeps_trans (State.rxKeeps_of v1 e) ⟨?_, rfl, rfl⟩
  exact ⟨s1.answers, s1.draws, [], _, s1.phyUp, s1.callbacks, by simp [State.setRx]; rfl, by simp, .inl rfl,
    fun _ => Nat.mod_lt _ (Nat.two_pow_pos _)⟩

theorem rxArmLinkCheck_keeps (s : State) : s.rxKeeps (rxArmLinkCheck s) := by
  unfold rxArmLinkCheck
  split
  · exact s.rxKeeps_refl
  · split <;> exact State.rxKeeps_of (s.rxEvolves_issue _ (by simp [rxAllowed])) rfl

theorem rxLocalKsv_evolves (s : State) : s.rxEvolves (rxLocalKsv s).2 := by
  have v : ∀ u : State, u.rxEvolves u.cipherGetLocalKsv.2 := fun u =>
    State.rxEvolves_draw u _ (by simp [rxAllowed]) _ _ _
  unfold rxLocalKsv
  simp only
  split
  · exact State.rxEvolves_trans (v s) (v _)
  · exact v s

theorem rxStartComputations_keeps {s t : State} {n : RxState} (h : rxStartComputations s = .ok (n, t)) :
    s.rxKeeps t := by
  have e := State.asks_rx (rxStartComputations_spec h).1
  refine State.rxKeeps_of ?_ e
  unfold rxStartComputations at h
  obtain ⟨⟨r, s1⟩, h1, h⟩ := bind_eq_ok h
  have v1 := State.portRead_rxEvolves h1
  cases r with
  | none => cases h; exact v1
  | some b1 =>
    obtain ⟨⟨r2, s2⟩, h2, h⟩ := bind_eq_ok h
    have v2 := State.rxEvolves_trans v1 (State.portRead_rxEvolves h2)
    cases r2 with
    | none => cases h; exact v2
    | some b2 =>
      cases h
      exact State.rxEvolves_trans v2 (State.rxEvolves_trans (State.rxEvolves_issue _ _ (by simp [rxAllowed]))
        (State.rxEvolves_trans (State.rxEvolves_draw _ _ (by simp [rxAllowed]) _ _ _)
          (State.rxEvolves_trans (State.rxEvolves_issue _ _ (by simp [rxAllowed]))
            (State.rxEvolves_issue _ _ (by simp [rxAllowed])))))

/-- The requests between two states are allowed to an Rx with parameters `p`. -/
def State.rxAsked (p : Params) (s t : State) : Prop :=
  ∃ rs, t.requests = s.requests ++ rs ∧ ∀ q ∈ rs, rxAllowed p q

theorem State.rxAsked_trans {p : Params} {s t u : State} (h : State.rxAsked p s t) (g : State.rxAsked p t u) :
    State.rxAsked p s u := by
  obtain ⟨rs, h1, h2⟩ := h
  obtain ⟨rs', g1, g2⟩ := g
  refine ⟨rs ++ rs', by rw [g1, h1, List.append_assoc], fun q hq => ?_⟩
  rcases List.mem_append.mp hq with hq | hq
  · exact h2 q hq
  · exact g2 q hq

theorem State.rxAsked_of {s t : State} (h : s.rxEvolves t) : State.rxAsked s.params s t := by
  obtain ⟨a, d, rs, r, b, c, rfl, h, -⟩ := h
  exact ⟨rs, rfl, h⟩

theorem rxBksvWrite_asked {u s1 : State} {off : Byte} {l : List Byte} {x : Bool}
    (h : (rxLocalKsv u).2.portWrite off l = .ok (x, s1)) (g : off = u.params.portMap.bksv) :
    State.rxAsked u.params u s1 := by
  have v := rxLocalKsv_evolves u
  have p := State.rxEvolves_params v
  have w := State.rxAsked_of (State.portWrite_rxEvolves h (by rw [p, g]; exact rxAllowed_bksv _ _))
  rw [p] at w
  exact State.rxAsked_trans (State.rxAsked_of v) w

theorem State.rxAsked_list {p : Params} {s t : State} (rs : List Request) (h : t.requests = s.requests ++ rs)
    (g : ∀ q ∈ rs, rxAllowed p q) : State.rxAsked p s t := ⟨rs, h, g⟩

/-- The parts of the exit of Rx `DISABLED` (44_rx_events.md R261). -/
theorem rxExitDisabled_open {s t : State} (h : rxExitDisabled s = .ok t) :
    ∃ u s1 x, (rxLocalKsv u).2.portWrite u.params.portMap.bksv (leBytes u.params.literals.ksvBytes (rxLocalKsv u).1) = .ok (x, s1) ∧
      t = (s1.portSetAuthCallback (.rx .authenticate)).issue .portEnable ∧ u.params = s.params ∧
      u.requests = s.requests ++ [.cipherSetLinkStateCheck false, .cipherSetRiUpdate false,
    .cipherSetLinkFailCallback (.rx .check), .cipherSetRiUpdateCallback (.rx .updateRi), .cipherEnable] := by
  unfold rxExitDisabled at h
  obtain ⟨⟨x, s1⟩, h1, h⟩ := bind_eq_ok h
  refine ⟨((((s.issue (.cipherSetLinkStateCheck false)).issue (.cipherSetRiUpdate false)).cipherSetLinkFailCallback
    (.rx .check)).cipherSetRiUpdateCallback (.rx .updateRi)).issue .cipherEnable, s1, x, h1, ?_, ?_, ?_⟩
  · cases h; rfl
  · simp [State.cipherSetLinkFailCallback, State.cipherSetRiUpdateCallback]
  · simp [State.cipherSetLinkFailCallback, State.cipherSetRiUpdateCallback]

theorem rxExitDisabled_asked {s t : State} (h : rxExitDisabled s = .ok t) : State.rxAsked s.params s t := by
  obtain ⟨u, s1, x, h1, rfl, hp, hr⟩ := rxExitDisabled_open h
  have w := rxBksvWrite_asked h1 rfl
  rw [hp] at w
  refine State.rxAsked_trans (State.rxAsked_list _ hr ?_) (State.rxAsked_trans w
    (State.rxAsked_list [.portSetAuthCallback (.rx .authenticate), .portEnable] ?_ ?_))
  · intro q hq
    simp only [List.mem_cons, List.not_mem_nil, or_false] at hq
    rcases hq with rfl | rfl | rfl | rfl | rfl <;> simp [rxAllowed]
  · simp [State.portSetAuthCallback]
  · intro q hq
    simp only [List.mem_cons, List.not_mem_nil, or_false] at hq
    rcases hq with rfl | rfl <;> simp [rxAllowed]

theorem rxExitDisabled_keeps {s t : State} (h : rxExitDisabled s = .ok t) : s.rxKeeps t := by
  obtain ⟨a, d, rs, e⟩ := rxExitDisabled_spec h
  obtain ⟨rs', h1, h2⟩ := rxExitDisabled_asked h
  subst e
  have : rs = rs' := List.append_cancel_left h1
  subst this
  exact ⟨⟨a, d, rs, s.rx, s.phyUp, rxCallbacks, rfl, h2, .inr rfl, id⟩, rfl, rfl⟩

theorem rxEnterDisabled_keeps (s : State) : s.rxKeeps (rxEnterDisabled s) := by
  refine ⟨State.rxEvolves_trans (State.rxEvolves_trans (s.rxEvolves_issue .portDisable (by simp [rxAllowed]))
    (State.rxEvolves_issue _ .cipherDisable (by simp [rxAllowed]))) ?_, rfl, rfl⟩
  exact ⟨s.answers, s.draws, [], { s.rx with riUpdates := 0 }, s.phyUp, s.callbacks, by
    simp [rxEnterDisabled, State.setRx, State.issue], by simp, .inl rfl, fun _ => Nat.two_pow_pos _⟩

/-- The exit actions only evolve the state and keep the state registers. -/
theorem rxExit_keeps {st : RxState} {s t : State} (h : rxExit st s = .ok t) : s.rxKeeps t := by
  cases st <;> simp only [rxExit] at h
  case disabled => exact rxExitDisabled_keeps h
  all_goals (cases h; exact State.rxKeeps_refl _)

/-- An entry action keeps the state registers and chooses its own state, but for the failed start of `COMPUTATIONS`
(41_event_queue.md R158). -/
theorem rxEnter_spec {st n : RxState} {s t : State} (h : rxEnter st s = .ok (n, t)) :
    s.rxKeeps t ∧ (n = st ∨ (st = .computations ∧ n = .unauthenticated)) := by
  cases st <;> simp only [rxEnter] at h
  case disabled => cases h; exact ⟨rxEnterDisabled_keeps _, .inl rfl⟩
  case computations =>
    refine ⟨rxStartComputations_keeps h, ?_⟩
    rcases (rxStartComputations_spec h).2 with rfl | rfl
    · exact .inl rfl
    · exact .inr ⟨rfl, rfl⟩
  case authenticated => cases h; exact ⟨rxArmLinkCheck_keeps _, .inl rfl⟩
  all_goals (cases h; exact ⟨State.rxKeeps_refl _, .inl rfl⟩)

/-- A run keeps the state registers (44_rx_events.md R259). -/
theorem rxRun_spec {e : RxEvent} {cur n : RxState} {s t : State} (h : rxRun e cur s = .ok (n, t)) : s.rxKeeps t := by
  cases e <;> simp only [rxRun] at h
  case authenticate =>
    cases cur <;> simp only [rxRunAuthenticate] at h
    case computations => exact rxStartComputations_keeps h
    all_goals (cases h; exact State.rxKeeps_refl _)
  case check =>
    cases cur <;> simp only [rxRunCheck] at h
    case authenticated => exact checkLinkIntegrity_keeps h
    case linkIntegrityFailed => exact checkLinkIntegrity_keeps h
    all_goals (cases h; exact State.rxKeeps_refl _)
  case disable => cases cur <;> (cases h; exact State.rxKeeps_refl _)
  case enable => cases cur <;> (cases h; exact State.rxKeeps_refl _)
  case phyDown => cases cur <;> (cases h; exact State.rxKeeps_refl _)
  case phyUp => cases cur <;> (cases h; exact State.rxKeeps_refl _)
  case poll =>
    cases cur <;> simp only [rxRunPoll] at h
    case computations =>
      have v : s.rxKeeps s.cipherIsRequestComplete.2 := State.rxKeeps_of
        (State.rxEvolves_draw _ _ (by simp [rxAllowed]) _ _ _) (State.asks_rx s.asks_cipherIsRequestComplete)
      split at h
      · obtain ⟨u, hu, h⟩ := bind_eq_ok h
        cases h
        exact State.rxKeeps_trans v (publishRiRo_keeps hu)
      · cases h; exact v
    all_goals (cases h; exact State.rxKeeps_refl _)
  case updateRi =>
    cases cur <;> simp only [rxRunUpdateRi] at h
    case authenticated =>
      split at h
      · obtain ⟨u, hu, h⟩ := map_eq_ok h
        cases h
        exact updateRi_keeps hu
      · cases h; exact State.rxKeeps_refl _
    all_goals (cases h; exact State.rxKeeps_refl _)

theorem State.rxEvolves_moveRx (s : State) (st : RxState) : s.rxEvolves (s.moveRx st) :=
  ⟨s.answers, s.draws, [], (s.moveRx st).rx, s.phyUp, s.callbacks, by simp [State.moveRx, State.setRx], by simp,
    .inl rfl, id⟩

/-- The loop only evolves the state; it ends in a legal state, with a legal `PreviousState` if it moved
(41_event_queue.md R156, R157). -/
theorem rxChain_spec {b : Nat} {cur next : RxState} {s t : State} (h : rxChain b cur next s = .ok t)
    (hc : s.rx.currentState = cur.code) :
    s.rxEvolves t ∧ ∃ fin : RxState, t.rx.currentState = fin.code ∧
      ((next = cur ∧ t = s) ∨ (next ≠ cur ∧ ∃ p : RxState, t.rx.previousState = p.code)) := by
  induction b generalizing cur next s with
  | zero =>
    unfold rxChain at h
    split at h
    · next e => cases h; exact ⟨State.rxEvolves_refl _, cur, hc, .inl ⟨e, rfl⟩⟩
    · cases h
  | succ b ih =>
    unfold rxChain at h
    split at h
    · next e => cases h; exact ⟨State.rxEvolves_refl _, cur, hc, .inl ⟨e, rfl⟩⟩
    · next e =>
      obtain ⟨s0, h0, h⟩ := bind_eq_ok h
      obtain ⟨⟨n, s1⟩, h1, h⟩ := bind_eq_ok h
      have k := State.rxKeeps_trans (rxExit_keeps h0) (rxEnter_spec h1).1
      obtain ⟨v2, fin, hf, hr⟩ := ih h rfl
      refine ⟨State.rxEvolves_trans k.1 (State.rxEvolves_trans (s1.rxEvolves_moveRx next) v2), fin, hf, .inr ⟨e, ?_⟩⟩
      rcases hr with ⟨rfl, rfl⟩ | ⟨-, hp⟩
      · exact ⟨cur, by simp only [State.moveRx, State.setRx_rx, k.2.1, hc]⟩
      · exact hp

/-- Two entry actions are enough for the Rx (41_event_queue.md R158). -/
theorem rxChain_bound {b : Nat} {cur next : RxState} {s : State} (h : next = cur ∨ 2 ≤ b ∨ (next ≠ .computations ∧ 1 ≤ b))
    (g1 : ∀ st u, rxEnter st u ≠ .error .chainTooLong) (g2 : ∀ st u, rxExit st u ≠ .error .chainTooLong) :
    rxChain b cur next s ≠ .error .chainTooLong := by
  induction b generalizing cur next s with
  | zero =>
    unfold rxChain
    rcases h with rfl | h | ⟨-, h⟩
    · simp
    · omega
    · omega
  | succ b ih =>
    unfold rxChain
    split
    · simp
    · next e =>
      have hr := h.resolve_left e
      intro hc
      generalize hx : rxExit cur s = r at hc
      cases r with
      | error f => cases hc; exact g2 _ _ hx
      | ok s0 =>
        change (rxEnter next s0 >>= fun p => rxChain b next p.1 (p.2.moveRx next)) = _ at hc
        generalize hy : rxEnter next s0 = r at hc
        cases r with
        | error f => cases hc; exact g1 _ _ hy
        | ok p =>
          obtain ⟨n, s1⟩ := p
          refine ih ?_ hc
          rcases (rxEnter_spec hy).2 with rfl | ⟨rfl, rfl⟩
          · exact .inl rfl
          · rcases hr with hr | ⟨hr, -⟩
            · exact .inr (.inr ⟨by simp, by omega⟩)
            · exact absurd rfl hr

theorem State.rxEvolves_updatePhyRx (s : State) (e : RxEvent) : s.rxEvolves (s.updatePhyRx e) := by
  cases e <;> first
    | exact s.rxEvolves_refl
    | exact ⟨s.answers, s.draws, [], s.rx, _, s.callbacks, by simp [State.updatePhyRx, State.setPhyUp]; rfl, by simp,
        .inl rfl, id⟩

@[simp] theorem State.updatePhyRx_rx (s : State) (e : RxEvent) : (s.updatePhyRx e).rx = s.rx := by cases e <;> rfl
@[simp] theorem State.updatePhyRx_params (s : State) (e : RxEvent) : (s.updatePhyRx e).params = s.params := by
  cases e <;> rfl

/-- The parts of a dispatch (41_event_queue.md R156). -/
theorem rxDispatch_cases {e : RxEvent} {s t : State} (h : rxDispatch e s = .ok t) :
    ∃ cur : RxState, s.rx.currentState = cur.code ∧ (rxStateOf s.rx.previousState).isSome = true ∧
      ∃ n u, rxRun e cur (s.updatePhyRx e) = .ok (n, u) ∧ rxChain chainBound cur n u = .ok t := by
  unfold rxDispatch at h
  simp only at h
  obtain ⟨cur, hc, h⟩ := bind_eq_ok h
  unfold rxCurrent at hc
  split at hc
  · next st hst =>
    cases hc
    rw [State.updatePhyRx_rx] at hst h
    split at h
    · cases h
    · next hp =>
      obtain ⟨⟨n, u⟩, hr, h⟩ := bind_eq_ok h
      refine ⟨_, code_of_rxStateOf _ _ hst, ?_, n, u, hr, h⟩
      cases hq : rxStateOf s.rx.previousState <;> simp_all
  · cases hc

/-- A dispatch only evolves the state. -/
theorem rxDispatch_evolves {e : RxEvent} {s t : State} (h : rxDispatch e s = .ok t) : s.rxEvolves t := by
  obtain ⟨cur, hc, -, n, u, hr, h⟩ := rxDispatch_cases h
  obtain ⟨v, c, -⟩ := rxRun_spec hr
  exact State.rxEvolves_trans (s.rxEvolves_updatePhyRx e) (State.rxEvolves_trans v
    (rxChain_spec h (by rw [c]; simpa using hc)).1)

/-- A dispatch keeps an Rx sound. -/
theorem rxDispatch_sound {e : RxEvent} {s t : State} (h : rxDispatch e s = .ok t) (hs : s.rxSound) : t.rxSound := by
  have ev := rxDispatch_evolves h
  obtain ⟨cur, hc, hp, n, u, hr, h⟩ := rxDispatch_cases h
  obtain ⟨v, c, p⟩ := rxRun_spec hr
  simp only [State.updatePhyRx_rx] at c p
  obtain ⟨-, fin, hf, hcase⟩ := rxChain_spec h (c.trans hc)
  refine ⟨⟨fin, hf, ?_⟩, State.rxEvolves_fits ev hs.2.1, (State.rxEvolves_timer ev).trans hs.2.2⟩
  rcases hcase with ⟨rfl, rfl⟩ | ⟨-, q, hq⟩
  · rw [p]; exact hp
  · rw [hq]; simp

end Sys2Proof.Machine
end

