-- ==== Sys2Proof/Laws/Tx.lean ====
section
/-! SUPPORT. What the transmitter's procedures can do (43_tx_procedures.md, 45_linkcheck.md), said once for each. -/

namespace Sys2Proof.Machine

/-- A counter increment fits (00_scope.md R14). -/
theorem bump_lt (w n : Nat) : bump w n < 2 ^ w := Nat.mod_lt _ (Nat.two_pow_pos w)

/-! ## `State.txWorks` -/

theorem State.txWorks_refl (s : State) : s.txWorks s := ⟨s.answers, s.draws, [], s.tx, by simp, rfl, rfl, rfl, id⟩

theorem State.txWorks_trans {s t u : State} (h : s.txWorks t) (g : t.txWorks u) : s.txWorks u := by
  obtain ⟨a, d, rs, r, rfl, h1, h2, h3, h4⟩ := h
  obtain ⟨a', d', rs', r', rfl, g1, g2, g3, g4⟩ := g
  exact ⟨a', d', rs ++ rs', r', by simp, g1.trans h1, g2.trans h2, g3.trans h3, fun h => g4 (h4 h)⟩

theorem State.txWorks_of_asks {s t : State} (h : s.asks t) : s.txWorks t := by
  obtain ⟨a, d, rs, rfl⟩ := h
  exact ⟨a, d, rs, s.tx, rfl, rfl, rfl, rfl, id⟩

theorem State.txWorks_params {s t : State} (h : s.txWorks t) : t.params = s.params := by
  obtain ⟨a, d, rs, r, rfl, -⟩ := h; rfl

theorem State.txWorks_setTx (s : State) (r : TxRegs) (h1 : r.currentState = s.tx.currentState)
    (h2 : r.previousState = s.tx.previousState) (h3 : r.encryptionMap = s.tx.encryptionMap)
    (h4 : s.tx.stats.fits s.params.statWidth → r.stats.fits s.params.statWidth) : s.txWorks (s.setTx r) :=
  ⟨s.answers, s.draws, [], r, by simp [State.setTx], h1, h2, h3, h4⟩

theorem State.txWorks_readFailure (s : State) : s.txWorks s.readFailure :=
  s.txWorks_setTx _ rfl rfl rfl fun h => ⟨h.1, h.2.1, bump_lt _ _, h.2.2.2.1, h.2.2.2.2⟩

theorem State.txWorks_countAuthFailed (s : State) : s.txWorks s.countAuthFailed :=
  s.txWorks_setTx _ rfl rfl rfl fun h => ⟨bump_lt _ _, h.2⟩

theorem State.txWorks_countAuthPassed (s : State) : s.txWorks s.countAuthPassed :=
  s.txWorks_setTx _ rfl rfl rfl fun h => ⟨h.1, bump_lt _ _, h.2.2⟩

theorem State.txWorks_countLinkCheckPassed (s : State) : s.txWorks s.countLinkCheckPassed :=
  s.txWorks_setTx _ rfl rfl rfl fun h => ⟨h.1, h.2.1, h.2.2.1, bump_lt _ _, h.2.2.2.2⟩

theorem State.txWorks_countLinkCheckFailed (s : State) : s.txWorks s.countLinkCheckFailed :=
  s.txWorks_setTx _ rfl rfl rfl fun h => ⟨h.1, h.2.1, h.2.2.1, h.2.2.2.1, bump_lt _ _⟩

theorem State.txWorks_setAn (s : State) (v : Wide) : s.txWorks (s.setAn v) := s.txWorks_setTx _ rfl rfl rfl id

theorem State.txWorks_setIsRepeater (s : State) (b : Bool) : s.txWorks (s.setIsRepeater b) :=
  s.txWorks_setTx _ rfl rfl rfl id

theorem State.txWorks_setRepeaterInfo (s : State) (v : Half) : s.txWorks (s.setRepeaterInfo v) :=
  s.txWorks_setTx _ rfl rfl rfl id

@[simp] theorem State.readFailure_an (s : State) : s.readFailure.tx.an = s.tx.an := rfl
@[simp] theorem State.countAuthFailed_an (s : State) : s.countAuthFailed.tx.an = s.tx.an := rfl
@[simp] theorem State.countAuthPassed_an (s : State) : s.countAuthPassed.tx.an = s.tx.an := rfl
@[simp] theorem State.countLinkCheckPassed_an (s : State) : s.countLinkCheckPassed.tx.an = s.tx.an := rfl
@[simp] theorem State.countLinkCheckFailed_an (s : State) : s.countLinkCheckFailed.tx.an = s.tx.an := rfl
@[simp] theorem State.setAn_an (s : State) (v : Wide) : (s.setAn v).tx.an = v := rfl
@[simp] theorem State.setIsRepeater_an (s : State) (b : Bool) : (s.setIsRepeater b).tx.an = s.tx.an := rfl
@[simp] theorem State.setRepeaterInfo_an (s : State) (v : Half) : (s.setRepeaterInfo v).tx.an = s.tx.an := rfl

/-! ## The procedures -/

theorem State.asks_setCheckLinkState (s : State) (b : Bool) : s.asks (s.setCheckLinkState b) :=
  State.asks_trans (s.asks_issue _) (State.asks_issue _ _)

/-- `ApplyEncryption` only asks (43_tx_procedures.md R221: "writes no register"). -/
theorem applyEncryption_spec {s t : State} (h : applyEncryption s = .ok t) : s.asks t := by
  unfold applyEncryption at h
  split at h
  · cases h; exact s.asks_refl
  · obtain ⟨u, hu, h⟩ := bind_eq_ok h
    exact State.asks_trans (State.asks_trans (State.busyDelay_spec hu) (State.asks_issue _ _))
      (State.busyDelay_spec h)

/-- `DetermineRxCapable` only asks and chooses `EXCHANGE_KSVS` or `UNAUTHENTICATED` (43_tx_procedures.md R210). -/
theorem determineRxCapable_spec (s : State) :
    s.asks (determineRxCapable s).2 ∧
      ((determineRxCapable s).1 = .exchangeKsvs ∨ (determineRxCapable s).1 = .unauthenticated) := by
  refine ⟨State.asks_trans (State.asks_trans (s.asks_setCheckLinkState false) (State.asks_issue _ _))
    (State.asks_portIsCapable _), ?_⟩
  unfold determineRxCapable
  simp only
  split
  · exact .inl rfl
  · exact .inr rfl

/-- `GenerateAn` leaves a non-zero `An`, `AN_FALLBACK` not being zero (43_tx_procedures.md R213). -/
theorem generateAn_spec {s t : State} (h : generateAn s = .ok t) :
    s.txWorks t ∧ (s.params.literals.anFallback ≠ 0#64 → t.tx.an ≠ 0#64) := by
  unfold generateAn at h
  obtain ⟨u, hu, h⟩ := bind_eq_ok h
  cases h
  constructor
  · exact State.txWorks_trans (State.txWorks_of_asks (State.asks_trans (State.asks_trans (s.asks_issue _)
      (State.awaitCipher_spec hu)) u.asks_cipherGetMi)) (State.txWorks_setAn _ _)
  · intro hf
    simp only [State.setAn_an]
    split
    · exact hf
    · assumption

/-- The writes of `ExchangeKsvs` keep `An` and choose `COMPUTATIONS` or `UNAUTHENTICATED` (43_tx_procedures.md R211). -/
theorem sendAnAksv_spec {k : Wide} {s t : State} {n : TxState} (h : sendAnAksv k s = .ok (n, t)) :
    s.txWorks t ∧ t.tx.an = s.tx.an ∧ (n = .computations ∨ n = .unauthenticated) := by
  unfold sendAnAksv at h
  obtain ⟨⟨anOk, s1⟩, h1, h⟩ := bind_eq_ok h
  have a1 := State.portWrite_spec h1
  simp only at h
  split at h
  · obtain ⟨⟨aksvOk, s2⟩, h2, h⟩ := bind_eq_ok h
    have a2 := State.asks_trans (State.asks_trans a1 (State.asks_cipherGetLocalKsv _)) (State.portWrite_spec h2)
    simp only at h
    split at h
    · cases h
      exact ⟨State.txWorks_of_asks (State.asks_trans a2 (State.asks_issue _ _)),
        by simp [State.asks_tx a2], .inl rfl⟩
    · cases h
      exact ⟨State.txWorks_trans (State.txWorks_of_asks a2) (State.txWorks_readFailure _),
        by simp [State.asks_tx a2], .inr rfl⟩
  · cases h
    exact ⟨State.txWorks_trans (State.txWorks_of_asks a1) (State.txWorks_readFailure _),
      by simp [State.asks_tx a1], .inr rfl⟩

/-- `ExchangeKsvs` after the `BKSV` read (43_tx_procedures.md R211). -/
theorem exchangeWith_spec {k : Wide} {s t : State} {n : TxState} (h : exchangeWith k s = .ok (n, t)) :
    s.txWorks t ∧ (n = .computations ∧ (s.params.literals.anFallback ≠ 0#64 → t.tx.an ≠ 0#64) ∨
      n = .unauthenticated) := by
  unfold exchangeWith at h
  split at h
  · simp only at h
    split at h
    · cases h
      exact ⟨State.txWorks_of_asks (s.asks_isKsvRevoked k), .inr rfl⟩
    · obtain ⟨u, hu, h⟩ := bind_eq_ok h
      obtain ⟨w1, hne⟩ := generateAn_spec hu
      obtain ⟨w2, han, hn⟩ := sendAnAksv_spec h
      refine ⟨State.txWorks_trans (State.txWorks_trans (State.txWorks_of_asks
        (State.asks_trans (s.asks_isKsvRevoked k) (State.asks_portIsRepeater _)))
        (State.txWorks_setIsRepeater _ _)) (State.txWorks_trans w1 w2), ?_⟩
      rcases hn with rfl | rfl
      · refine .inl ⟨rfl, fun hf => ?_⟩
        rw [han]
        refine hne ?_
        rwa [← State.asks_params (State.asks_trans (s.asks_isKsvRevoked k) (State.asks_portIsRepeater _))] at hf
      · exact .inr rfl
  · cases h
    exact ⟨State.txWorks_refl _, .inr rfl⟩

/-- `ExchangeKsvs` chooses `COMPUTATIONS` with a non-zero `An`, or `UNAUTHENTICATED` (43_tx_procedures.md R211). -/
theorem exchangeKsvs_spec {s t : State} {n : TxState} (h : exchangeKsvs s = .ok (n, t)) :
    s.txWorks t ∧ (n = .computations ∧ (s.params.literals.anFallback ≠ 0#64 → t.tx.an ≠ 0#64) ∨
      n = .unauthenticated) := by
  unfold exchangeKsvs at h
  obtain ⟨⟨r, s1⟩, h1, h⟩ := bind_eq_ok h
  have a1 := (State.portRead_spec h1).1
  cases r with
  | none =>
    cases h
    exact ⟨State.txWorks_trans (State.txWorks_of_asks a1) (State.txWorks_readFailure _), .inr rfl⟩
  | some b =>
    obtain ⟨w, hn⟩ := exchangeWith_spec h
    exact ⟨State.txWorks_trans (State.txWorks_of_asks a1) w, by rwa [State.asks_params a1] at hn⟩

/-- `StartComputations` only asks (43_tx_procedures.md R214). -/
theorem startComputations_spec (s : State) : s.asks (startComputations s) :=
  State.asks_trans (s.asks_issue _) (State.asks_issue _ _)

/-- `PollForComputations` only asks and stays or goes to `VALIDATE_RX` (43_tx_procedures.md R215). -/
theorem pollForComputations_spec (s : State) :
    s.asks (pollForComputations s).2 ∧
      ((pollForComputations s).1 = .validateRx ∨ (pollForComputations s).1 = .computations) := by
  refine ⟨s.asks_cipherIsRequestComplete, ?_⟩
  unfold pollForComputations
  simp only
  split
  · exact .inl rfl
  · exact .inr rfl

/-- `TestForRepeater` keeps `An` and chooses `WAIT_FOR_READY` or `AUTHENTICATED` (43_tx_procedures.md R216). -/
theorem testForRepeater_spec {s t : State} {n : TxState} (h : testForRepeater s = .ok (n, t)) :
    s.txWorks t ∧ t.tx.an = s.tx.an ∧ (n = .waitForReady ∨ n = .authenticated) := by
  unfold testForRepeater at h
  split at h
  · obtain ⟨⟨ok, s1⟩, h1, h⟩ := bind_eq_ok h
    obtain ⟨s2, h2, h⟩ := bind_eq_ok h
    cases h
    have a1 := State.portWrite_spec h1
    have a2 := applyEncryption_spec h2
    cases ok
    · exact ⟨State.txWorks_trans (State.txWorks_trans (State.txWorks_of_asks a1) (State.txWorks_readFailure _))
        (State.txWorks_of_asks a2), by rw [State.asks_tx a2]; simp [State.asks_tx a1], .inl rfl⟩
    · exact ⟨State.txWorks_of_asks (State.asks_trans a1 a2), by rw [State.asks_tx a2]; simp [State.asks_tx a1],
        .inl rfl⟩
  · cases h
    exact ⟨State.txWorks_refl _, rfl, .inr rfl⟩

/-- `ReadinessCheck` keeps `An` and stays or chooses one of three states (43_tx_procedures.md R217). -/
theorem readinessCheck_spec (b : Bool) (s : State) :
    s.txWorks (readinessCheck b s).2 ∧ (readinessCheck b s).2.tx.an = s.tx.an ∧
      ((readinessCheck b s).1 = .unauthenticated ∨ (readinessCheck b s).1 = .waitForReady ∨
        (readinessCheck b s).1 = .authenticated ∨ (readinessCheck b s).1 = .readKsvList) := by
  have a := s.asks_portGetRepeaterInfo
  unfold readinessCheck
  generalize s.portGetRepeaterInfo = p at *
  obtain ⟨i, s1⟩ := p
  change s.asks s1 at a
  cases i with
  | none =>
    refine ⟨State.txWorks_of_asks a, by simp [State.asks_tx a], ?_⟩
    cases b <;> simp
  | some i =>
    refine ⟨State.txWorks_trans (State.txWorks_of_asks a) (State.txWorks_setRepeaterInfo _ _),
      by simp [State.asks_tx a], ?_⟩
    simp only
    split
    · exact .inl rfl
    · split
      · exact .inr (.inr (.inl rfl))
      · exact .inr (.inr (.inr rfl))

/-- The FIFO reads keep `An` (43_tx_procedures.md R219). -/
theorem readKsvFifo_spec {fuel left : Nat} {list : List Byte} {s t : State} {r : Option (List Byte)}
    (h : readKsvFifo fuel left list s = .ok (r, t)) : s.txWorks t ∧ t.tx.an = s.tx.an := by
  induction fuel generalizing left list s with
  | zero =>
    cases left with
    | zero => cases h; exact ⟨State.txWorks_refl _, rfl⟩
    | succ n => cases h
  | succ fuel ih =>
    cases left with
    | zero => cases h; exact ⟨State.txWorks_refl _, rfl⟩
    | succ left =>
      unfold readKsvFifo at h
      obtain ⟨⟨r1, s1⟩, h1, h⟩ := bind_eq_ok h
      have a1 := (State.portRead_spec h1).1
      cases r1 with
      | none =>
        cases h
        exact ⟨State.txWorks_trans (State.txWorks_of_asks a1) (State.txWorks_readFailure _),
          by simp [State.asks_tx a1]⟩
      | some b =>
        obtain ⟨w, e⟩ := ih h
        exact ⟨State.txWorks_trans (State.txWorks_of_asks a1) w, by rw [e, State.asks_tx a1]⟩

/-- The `V'` comparison keeps `An` (43_tx_procedures.md R219). -/
theorem compareVPrime_spec {l : List (Byte × Word)} {s t : State} {b : Bool}
    (h : compareVPrime l s = .ok (b, t)) : s.txWorks t ∧ t.tx.an = s.tx.an := by
  induction l generalizing s with
  | nil => cases h; exact ⟨State.txWorks_refl _, rfl⟩
  | cons p l ih =>
    unfold compareVPrime at h
    obtain ⟨⟨r1, s1⟩, h1, h⟩ := bind_eq_ok h
    have a1 := (State.portRead_spec h1).1
    cases r1 with
    | none =>
      cases h
      exact ⟨State.txWorks_trans (State.txWorks_of_asks a1) (State.txWorks_readFailure _),
        by simp [State.asks_tx a1]⟩
    | some b1 =>
      simp only at h
      split at h
      · obtain ⟨w, e⟩ := ih h
        exact ⟨State.txWorks_trans (State.txWorks_of_asks a1) w, by rw [e, State.asks_tx a1]⟩
      · cases h
        exact ⟨State.txWorks_of_asks a1, by rw [State.asks_tx a1]⟩

/-- One attempt keeps `An` (43_tx_procedures.md R219). -/
theorem ksvListAttempt_spec {s t : State} {b : Bool} (h : ksvListAttempt s = .ok (b, t)) :
    s.txWorks t ∧ t.tx.an = s.tx.an := by
  unfold ksvListAttempt at h
  obtain ⟨⟨r, s1⟩, h1, h⟩ := bind_eq_ok h
  obtain ⟨w1, e1⟩ := readKsvFifo_spec h1
  cases r with
  | none => cases h; exact ⟨w1, e1⟩
  | some list =>
    obtain ⟨w2, e2⟩ := compareVPrime_spec h
    exact ⟨State.txWorks_trans (State.txWorks_trans w1 (State.txWorks_of_asks s1.asks_cipherGetMo)) w2,
      by rw [e2, State.asks_tx s1.asks_cipherGetMo, e1]⟩

/-- The attempts keep `An` (43_tx_procedures.md R218). -/
theorem ksvListAttempts_spec {n : Nat} {s t : State} {b : Bool} (h : ksvListAttempts n s = .ok (b, t)) :
    s.txWorks t ∧ t.tx.an = s.tx.an := by
  induction n generalizing s with
  | zero => cases h; exact ⟨State.txWorks_refl _, rfl⟩
  | succ n ih =>
    unfold ksvListAttempts at h
    obtain ⟨⟨ok, s1⟩, h1, h⟩ := bind_eq_ok h
    obtain ⟨w1, e1⟩ := ksvListAttempt_spec h1
    simp only at h
    split at h
    · cases h; exact ⟨w1, e1⟩
    · obtain ⟨w2, e2⟩ := ih h
      exact ⟨State.txWorks_trans w1 w2, e2.trans e1⟩

/-- `ValidateKsvList` keeps `An` and chooses `AUTHENTICATED` or `UNAUTHENTICATED` (43_tx_procedures.md R218). -/
theorem validateKsvList_spec {s t : State} {n : TxState} (h : validateKsvList s = .ok (n, t)) :
    s.txWorks t ∧ t.tx.an = s.tx.an ∧ (n = .authenticated ∨ n = .unauthenticated) := by
  unfold validateKsvList at h
  obtain ⟨⟨ok, s1⟩, h1, h⟩ := bind_eq_ok h
  obtain ⟨w1, e1⟩ := ksvListAttempts_spec h1
  cases ok
  · cases h
    exact ⟨State.txWorks_trans w1 (State.txWorks_countAuthFailed _), by simpa using e1, .inr rfl⟩
  · cases h
    exact ⟨w1, e1, .inl rfl⟩

/-- `EnterAuthenticated` ends with `An` 0 (43_tx_procedures.md R220). -/
theorem enterAuthenticated_spec {s t : State} (h : enterAuthenticated s = .ok t) :
    s.txWorks t ∧ t.tx.an = 0#64 := by
  unfold enterAuthenticated at h
  obtain ⟨u, hu, h⟩ := bind_eq_ok h
  cases h
  refine ⟨State.txWorks_trans (State.txWorks_trans ?_ (State.txWorks_of_asks (applyEncryption_spec hu)))
    (State.txWorks_setAn _ _), rfl⟩
  split
  · exact s.txWorks_refl
  · exact State.txWorks_trans s.txWorks_countAuthPassed (State.txWorks_of_asks (State.asks_setCheckLinkState _ _))

/-- The `Ro'` tries keep `An` (45_linkcheck.md R291). -/
theorem roTries_spec {ro : Half} {n : Nat} {s t : State} {b : Bool} (h : roTries ro n s = .ok (b, t)) :
    s.txWorks t ∧ t.tx.an = s.tx.an := by
  induction n generalizing s with
  | zero => cases h; exact ⟨State.txWorks_refl _, rfl⟩
  | succ n ih =>
    unfold roTries at h
    obtain ⟨⟨r, s1⟩, h1, h⟩ := bind_eq_ok h
    have a1 := (State.portRead_spec h1).1
    cases r with
    | none =>
      obtain ⟨w, e⟩ := ih h
      exact ⟨State.txWorks_trans (State.txWorks_trans (State.txWorks_of_asks a1) (State.txWorks_readFailure _)) w,
        by rw [e]; simp [State.asks_tx a1]⟩
    | some b1 =>
      simp only at h
      split at h
      · cases h
        exact ⟨State.txWorks_of_asks a1, by rw [State.asks_tx a1]⟩
      · obtain ⟨w, e⟩ := ih h
        exact ⟨State.txWorks_trans (State.txWorks_of_asks a1) w, by rw [e, State.asks_tx a1]⟩

/-- `ValidateRx` keeps `An` and chooses `TEST_FOR_REPEATER` or `UNAUTHENTICATED` (45_linkcheck.md R291). -/
theorem validateRx_spec {s t : State} {n : TxState} (h : validateRx s = .ok (n, t)) :
    s.txWorks t ∧ t.tx.an = s.tx.an ∧ (n = .testForRepeater ∨ n = .unauthenticated) := by
  unfold validateRx at h
  obtain ⟨⟨ok, s1⟩, h1, h⟩ := bind_eq_ok h
  obtain ⟨w1, e1⟩ := roTries_spec h1
  have a := s.asks_cipherGetRo
  rw [State.asks_tx a] at e1
  cases ok
  · cases h
    exact ⟨State.txWorks_trans (State.txWorks_trans (State.txWorks_of_asks a) w1) (State.txWorks_countAuthFailed _),
      by simpa using e1, .inr rfl⟩
  · cases h
    exact ⟨State.txWorks_trans (State.txWorks_of_asks a) w1, e1, .inl rfl⟩

/-- The `Ri'` tries keep `An` (45_linkcheck.md R292). -/
theorem riTries_spec {n : Nat} {s t : State} {b : Bool} (h : riTries n s = .ok (b, t)) :
    s.txWorks t ∧ t.tx.an = s.tx.an := by
  induction n generalizing s with
  | zero => cases h; exact ⟨State.txWorks_refl _, rfl⟩
  | succ n ih =>
    unfold riTries at h
    obtain ⟨⟨r, s1⟩, h1, h⟩ := bind_eq_ok h
    have a1 := State.asks_trans s.asks_cipherGetRi (State.portRead_spec h1).1
    cases r with
    | none =>
      obtain ⟨w, e⟩ := ih h
      exact ⟨State.txWorks_trans (State.txWorks_trans (State.txWorks_of_asks a1) (State.txWorks_readFailure _)) w,
        by rw [e]; simp [State.asks_tx a1]⟩
    | some b1 =>
      simp only at h
      split at h
      · cases h
        exact ⟨State.txWorks_of_asks a1, by rw [State.asks_tx a1]⟩
      · obtain ⟨w, e⟩ := ih h
        exact ⟨State.txWorks_trans (State.txWorks_of_asks a1) w, by rw [e, State.asks_tx a1]⟩

/-- `LinkIntegrityCheck` keeps `An` and chooses `AUTHENTICATED` or `DETERMINE_RX_CAPABLE` (45_linkcheck.md R292). -/
theorem linkIntegrityCheck_spec {s t : State} {n : TxState} (h : linkIntegrityCheck s = .ok (n, t)) :
    s.txWorks t ∧ t.tx.an = s.tx.an ∧ (n = .authenticated ∨ n = .determineRxCapable) := by
  unfold linkIntegrityCheck at h
  obtain ⟨⟨ok, s1⟩, h1, h⟩ := bind_eq_ok h
  obtain ⟨w1, e1⟩ := riTries_spec h1
  cases ok
  · cases h
    exact ⟨State.txWorks_trans w1 (State.txWorks_countLinkCheckFailed _), by simpa using e1, .inr rfl⟩
  · cases h
    exact ⟨State.txWorks_trans w1 (State.txWorks_countLinkCheckPassed _), by simpa using e1, .inl rfl⟩

end Sys2Proof.Machine
end

