-- ==== Sys2Proof/Laws/TxDispatch.lean ====
section
/-! SUPPORT. What the transmitter's entry and exit actions, runs and dispatch loop can do, said once for each
(42_tx_events.md, 41_event_queue.md R156 to R158). -/

namespace Sys2Proof.Machine

/-- `t` is `s` after some part of a Tx dispatch: what such a part can touch, and that it keeps `EncryptionMap`. -/
def State.txEvolves (s t : State) : Prop :=
  ∃ (a : Answers) (d : Nat) (rs : List Request) (r : TxRegs) (p : Half) (b : Bool) (c : Callbacks) (tm : Option Nat),
    t = { s with
      answers := a, draws := d, requests := s.requests ++ rs, tx := r, pendingEvents := p, phyUp := b
      callbacks := c, timer := tm } ∧
    r.encryptionMap = s.tx.encryptionMap ∧
    (p = s.pendingEvents ∨ p = s.pendingEvents ||| TxEvent.authenticate.mask) ∧
    (c = s.callbacks ∨ c = txCallbacks) ∧
    (s.tx.stats.fits s.params.statWidth → r.stats.fits s.params.statWidth)

theorem State.txEvolves_refl (s : State) : s.txEvolves s :=
  ⟨s.answers, s.draws, [], s.tx, s.pendingEvents, s.phyUp, s.callbacks, s.timer, by simp, rfl, .inl rfl, .inl rfl, id⟩

theorem State.txEvolves_trans {s t u : State} (h : s.txEvolves t) (g : t.txEvolves u) : s.txEvolves u := by
  obtain ⟨a, d, rs, r, p, b, c, tm, rfl, h1, h2, h3, h4⟩ := h
  obtain ⟨a', d', rs', r', p', b', c', tm', rfl, g1, g2, g3, g4⟩ := g
  refine ⟨a', d', rs ++ rs', r', p', b', c', tm', by simp, g1.trans h1, ?_, ?_, fun h => g4 (h4 h)⟩
  · simp only at g2
    rcases h2 with rfl | rfl <;> rcases g2 with rfl | rfl <;> simp [BitVec.or_assoc]
  · rcases g3 with rfl | rfl
    · exact h3
    · exact .inr rfl

theorem State.txEvolves_of_works {s t : State} (h : s.txWorks t) : s.txEvolves t := by
  obtain ⟨a, d, rs, r, rfl, -, -, h3, h4⟩ := h
  exact ⟨a, d, rs, r, s.pendingEvents, s.phyUp, s.callbacks, s.timer, rfl, h3, .inl rfl, .inl rfl, h4⟩

theorem State.txEvolves_of_asks {s t : State} (h : s.asks t) : s.txEvolves t :=
  State.txEvolves_of_works (State.txWorks_of_asks h)

theorem State.txEvolves_params {s t : State} (h : s.txEvolves t) : t.params = s.params := by
  obtain ⟨a, d, rs, r, p, b, c, tm, rfl, -⟩ := h; rfl

theorem State.txEvolves_arrivals {s t : State} (h : s.txEvolves t) : t.arrivals = s.arrivals := by
  obtain ⟨a, d, rs, r, p, b, c, tm, rfl, -⟩ := h; rfl

theorem State.txEvolves_rx {s t : State} (h : s.txEvolves t) : t.rx = s.rx := by
  obtain ⟨a, d, rs, r, p, b, c, tm, rfl, -⟩ := h; rfl

theorem State.txEvolves_ready {s t : State} (h : s.txEvolves t) : t.ready = s.ready := by
  obtain ⟨a, d, rs, r, p, b, c, tm, rfl, -⟩ := h; rfl

theorem State.txEvolves_map {s t : State} (h : s.txEvolves t) : t.tx.encryptionMap = s.tx.encryptionMap := by
  obtain ⟨a, d, rs, r, p, b, c, tm, rfl, h, -⟩ := h; exact h

theorem State.txEvolves_fits {s t : State} (h : s.txEvolves t) (f : s.tx.stats.fits s.params.statWidth) :
    t.tx.stats.fits t.params.statWidth := by
  obtain ⟨a, d, rs, r, p, b, c, tm, rfl, -, -, -, h⟩ := h; exact h f

theorem State.txWorks_states {s t : State} (h : s.txWorks t) :
    t.tx.currentState = s.tx.currentState ∧ t.tx.previousState = s.tx.previousState ∧ t.timer = s.timer := by
  obtain ⟨a, d, rs, r, rfl, h1, h2, -⟩ := h; exact ⟨h1, h2, rfl⟩

theorem State.asks_timer {s t : State} (h : s.asks t) : t.timer = s.timer := by
  obtain ⟨a, d, rs, rfl⟩ := h; rfl

theorem State.txEvolves_stopTimer (s : State) : s.txEvolves s.stopTimer := by
  unfold State.stopTimer
  split
  · exact ⟨s.answers, s.draws, [.timerStop], s.tx, s.pendingEvents, s.phyUp, s.callbacks, none, rfl, rfl, .inl rfl,
      .inl rfl, id⟩
  · exact s.txEvolves_refl

theorem State.txEvolves_startTimer (s : State) (ms : Nat) : s.txEvolves (s.startTimer ms) := by
  unfold State.startTimer
  split
  · exact ⟨s.answers, s.draws, [.timerStart ms], s.tx, s.pendingEvents, s.phyUp, s.callbacks, some ms, rfl, rfl,
      .inl rfl, .inl rfl, id⟩
  · exact s.txEvolves_refl

/-- What stopping the timer does to it (20_memory.md R69, R70). -/
theorem State.stopTimer_eq (s : State) :
    s.stopTimer = { s with requests := s.requests ++ stopRequests s.params, timer := stoppedTimer s.params s.timer } := by
  unfold State.stopTimer stopRequests stoppedTimer
  split <;> simp [State.issue, State.setTimer]

/-- What starting the timer does to it (20_memory.md R69, R70). -/
theorem State.startTimer_eq (s : State) (ms : Nat) :
    s.startTimer ms =
      { s with requests := s.requests ++ startRequests s.params ms, timer := startedTimer s.params ms s.timer } := by
  unfold State.startTimer startRequests startedTimer
  split <;> simp [State.issue, State.setTimer]

/-- The exit actions, whole (42_tx_events.md R182, R187, R192, R196, R197). -/
theorem txExit_eq (st : TxState) (s : State) :
    txExit st s = { s with
      requests := s.requests ++ txExitRequests s.params st, timer := txExitTimer s.params st s.timer
      callbacks := if st = .disabled then txCallbacks else s.callbacks } := by
  cases st <;>
    simp [txExit, txExitRequests, txExitTimer, TxState.timed, State.stopTimer_eq, State.issue, txExitDisabled,
      txEnableRequests, txCallbacks, State.cipherSetLinkFailCallback, State.cipherSetRiUpdateCallback,
      State.portSetAuthCallback, State.setCallbacks]

/-- The state an entry action chooses: a resting state itself, or one of the edges of 41_event_queue.md R158. -/
def txEdge (st n : TxState) : Bool :=
  match st with
  | .determineRxCapable => n ∈ [.exchangeKsvs, .unauthenticated]
  | .exchangeKsvs => n ∈ [.computations, .unauthenticated]
  | .linkIntegrityCheck => n ∈ [.authenticated, .determineRxCapable]
  | .testForRepeater => n ∈ [.waitForReady, .authenticated]
  | .readKsvList => n ∈ [.authenticated, .unauthenticated]
  | .disabled | .computations | .validateRx | .authenticated | .waitForReady | .unauthenticated | .phyDown => n == st

/-- The states whose entry action is given a fresh `An` and keeps it. -/
def TxState.needsAn : TxState → Bool
  | .computations | .validateRx | .testForRepeater | .waitForReady => true
  | .disabled | .determineRxCapable | .exchangeKsvs | .authenticated | .linkIntegrityCheck | .readKsvList
  | .unauthenticated | .phyDown => false

/-- Zero counters fit. -/
theorem TxStats.zero_fits (w : Nat) : TxStats.zero.fits w := by
  have := Nat.two_pow_pos w
  exact ⟨this, this, this, this, this⟩

/-- An entry action: what it may touch, the edge it takes, what it does to `An` and the timer, and that it leaves the
state registers to the loop (42_tx_events.md R181 to R195). -/
theorem txEnter_spec {st n : TxState} {s t : State} (h : txEnter st s = .ok (n, t)) :
    s.txEvolves t ∧ txEdge st n = true ∧ t.tx.currentState = s.tx.currentState ∧
      t.tx.previousState = s.tx.previousState ∧
      (st.needsAn = true → s.tx.an ≠ 0#64 → t.tx.an ≠ 0#64) ∧
      (st.needsAn = false → st.resting = true → t.tx.an = 0#64) ∧
      (n = .computations → st = .exchangeKsvs → s.params.literals.anFallback ≠ 0#64 → t.tx.an ≠ 0#64) ∧
      (t.timer = s.timer ∨ (st = .disabled ∧ t.timer = stoppedTimer s.params s.timer) ∨ st.timed = true) := by
  cases st <;> simp only [txEnter] at h
  case disabled =>
    cases h
    refine ⟨?_, rfl, by simp [txEnterDisabled, State.stopTimer_eq], by simp [txEnterDisabled, State.stopTimer_eq],
      by simp [TxState.needsAn], fun _ _ => rfl, by simp, ?_⟩
    · refine State.txEvolves_trans s.txEvolves_stopTimer (State.txEvolves_trans (State.txEvolves_of_asks
        (State.asks_trans (State.asks_issue _ (.cipherDisableEncryption allStreams)) (State.asks_trans
          (State.asks_issue _ .cipherDisable) (State.asks_issue _ .portDisable))))
        (State.txEvolves_of_works (State.txWorks_setTx _ _ rfl rfl rfl fun _ => TxStats.zero_fits _)))
    · simp [txEnterDisabled, State.stopTimer_eq]
  case determineRxCapable =>
    obtain ⟨a, e⟩ := determineRxCapable_spec s
    simp only [Except.ok.injEq] at h
    rw [h] at a e
    have x := State.asks_tx a
    refine ⟨State.txEvolves_of_asks a, ?_, by rw [x], by rw [x], by simp [TxState.needsAn], by
      simp [TxState.resting], by simp, .inl (State.asks_timer a)⟩
    rcases e with e | e <;> simp only at e <;> subst e <;> rfl
  case exchangeKsvs =>
    obtain ⟨w, e⟩ := exchangeKsvs_spec h
    have x := State.txWorks_states w
    refine ⟨State.txEvolves_of_works w, ?_, x.1, x.2.1, by simp [TxState.needsAn], by simp [TxState.resting], ?_,
      .inl x.2.2⟩
    · rcases e with ⟨rfl, -⟩ | rfl <;> rfl
    · rintro rfl -
      rcases e with ⟨-, e⟩ | e
      · exact e
      · cases e
  case computations =>
    cases h
    have a := startComputations_spec s
    have x := State.asks_tx a
    exact ⟨State.txEvolves_of_asks a, rfl, by rw [x], by rw [x], fun _ h => by rw [x]; exact h,
      by simp [TxState.needsAn], by simp, .inl (State.asks_timer a)⟩
  case validateRx =>
    cases h
    exact ⟨s.txEvolves_startTimer _, rfl, by simp [State.startTimer_eq], by simp [State.startTimer_eq],
      fun _ h => by simpa [State.startTimer_eq] using h, by simp [TxState.needsAn], by simp, .inr (.inr rfl)⟩
  case authenticated =>
    obtain ⟨u, hu, e⟩ := map_eq_ok h
    cases e
    obtain ⟨w, e⟩ := enterAuthenticated_spec hu
    have x := State.txWorks_states w
    exact ⟨State.txEvolves_of_works w, rfl, x.1, x.2.1, by simp [TxState.needsAn], fun _ _ => e, by simp, .inl x.2.2⟩
  case linkIntegrityCheck =>
    obtain ⟨w, e, hn⟩ := linkIntegrityCheck_spec h
    have x := State.txWorks_states w
    exact ⟨State.txEvolves_of_works w, by rcases hn with rfl | rfl <;> rfl, x.1, x.2.1, by simp [TxState.needsAn],
      by simp [TxState.resting], by simp, .inl x.2.2⟩
  case testForRepeater =>
    obtain ⟨w, e, hn⟩ := testForRepeater_spec h
    have x := State.txWorks_states w
    exact ⟨State.txEvolves_of_works w, by rcases hn with rfl | rfl <;> rfl, x.1, x.2.1, fun _ h => by rw [e]; exact h,
      by simp [TxState.needsAn], by simp, .inl x.2.2⟩
  case waitForReady =>
    cases h
    exact ⟨s.txEvolves_startTimer _, rfl, by simp [State.startTimer_eq], by simp [State.startTimer_eq],
      fun _ h => by simpa [State.startTimer_eq] using h, by simp [TxState.needsAn], by simp, .inr (.inr rfl)⟩
  case readKsvList =>
    obtain ⟨w, e, hn⟩ := validateKsvList_spec h
    have x := State.txWorks_states w
    exact ⟨State.txEvolves_of_works w, by rcases hn with rfl | rfl <;> rfl, x.1, x.2.1, by simp [TxState.needsAn],
      by simp [TxState.resting], by simp, .inl x.2.2⟩
  case unauthenticated =>
    cases h
    exact ⟨State.txEvolves_trans (State.txEvolves_of_asks (State.asks_trans (State.asks_setCheckLinkState _ _)
      (State.asks_issue _ _))) (State.txEvolves_of_works (State.txWorks_setAn _ _)), rfl, rfl, rfl,
      by simp [TxState.needsAn], fun _ _ => rfl, by simp, .inl rfl⟩
  case phyDown =>
    cases h
    exact ⟨State.txEvolves_trans (State.txEvolves_of_asks (State.asks_trans (State.asks_issue _ _)
      (State.asks_issue _ _))) (State.txEvolves_of_works (State.txWorks_setAn _ _)), rfl, rfl, rfl,
      by simp [TxState.needsAn], fun _ _ => rfl, by simp, .inl rfl⟩

/-- A run: what it may touch, that it keeps the state registers, `An` and the timer, and what it may choose
(42_tx_events.md R180). -/
theorem txRun_spec {e : TxEvent} {cur n : TxState} {s t : State} (h : txRun e cur s = .ok (n, t)) :
    s.txEvolves t ∧ t.tx.currentState = s.tx.currentState ∧ t.tx.previousState = s.tx.previousState ∧
      t.tx.an = s.tx.an ∧ t.timer = s.timer ∧ (n ≠ cur → n.needsAn = true → cur.attemptRunning = true) := by
  have stay : ∀ {m : TxState} {u : State}, (Except.ok (m, s) : Except Fault (TxState × State)) = .ok (n, u) →
      u = t → (m ≠ cur → m.needsAn = true → cur.attemptRunning = true) →
      s.txEvolves t ∧ t.tx.currentState = s.tx.currentState ∧ t.tx.previousState = s.tx.previousState ∧
        t.tx.an = s.tx.an ∧ t.timer = s.timer ∧ (n ≠ cur → n.needsAn = true → cur.attemptRunning = true) := by
    intro m u h1 h2 h3
    cases h1; subst h2
    exact ⟨State.txEvolves_refl _, rfl, rfl, rfl, rfl, h3⟩
  have asked : s.asks t → (n ≠ cur → n.needsAn = true → cur.attemptRunning = true) →
      s.txEvolves t ∧ t.tx.currentState = s.tx.currentState ∧ t.tx.previousState = s.tx.previousState ∧
        t.tx.an = s.tx.an ∧ t.timer = s.timer ∧ (n ≠ cur → n.needsAn = true → cur.attemptRunning = true) := by
    intro a h3
    have x := State.asks_tx a
    exact ⟨State.txEvolves_of_asks a, by rw [x], by rw [x], by rw [x], State.asks_timer a, h3⟩
  have worked : s.txWorks t → t.tx.an = s.tx.an → cur.attemptRunning = true →
      s.txEvolves t ∧ t.tx.currentState = s.tx.currentState ∧ t.tx.previousState = s.tx.previousState ∧
        t.tx.an = s.tx.an ∧ t.timer = s.timer ∧ (n ≠ cur → n.needsAn = true → cur.attemptRunning = true) := by
    intro w x c
    have y := State.txWorks_states w
    exact ⟨State.txEvolves_of_works w, y.1, y.2.1, x, y.2.2, fun _ _ => c⟩
  cases e <;> simp only [txRun] at h
  case phyUp =>
    cases cur <;> simp only [txRunPhyUp] at h
    case phyDown =>
      split at h
      · exact stay h rfl (by simp [TxState.needsAn])
      · cases h
        exact ⟨⟨s.answers, s.draws, [], s.tx, postedTo s.pendingEvents (.tx .authenticate), s.phyUp, s.callbacks, s.timer,
          by simp [State.post, State.setPending], rfl, .inr (postedTo_unsuppressed rfl), .inl rfl, id⟩, rfl, rfl, rfl, rfl, by simp [TxState.needsAn]⟩
    all_goals exact stay h rfl (by simp)
  case poll =>
    cases cur <;> simp only [txRunPoll] at h
    case computations =>
      have a := (pollForComputations_spec s).1
      simp only [Except.ok.injEq] at h
      rw [h] at a
      exact asked a (by simp [TxState.attemptRunning])
    case waitForReady =>
      split at h
      · obtain ⟨w, x, -⟩ := readinessCheck_spec false s
        simp only [Except.ok.injEq] at h
        rw [h] at w x
        exact worked w x rfl
      · exact stay h rfl (by simp)
    all_goals exact stay h rfl (by simp)
  case timeout =>
    cases cur <;> simp only [txRunTimeout] at h
    case validateRx =>
      obtain ⟨w, x, -⟩ := validateRx_spec h
      exact worked w x rfl
    case waitForReady =>
      obtain ⟨w, x, -⟩ := readinessCheck_spec true s
      simp only [Except.ok.injEq] at h
      rw [h] at w x
      exact worked w x rfl
    all_goals exact stay h rfl (by simp)
  case enable =>
    cases cur <;> simp only [txRunEnable] at h
    case disabled => exact stay h rfl (by split <;> simp [TxState.needsAn])
    all_goals exact stay h rfl (by simp)
  case authenticate => cases cur <;> exact stay h rfl (by simp [TxState.needsAn])
  case check => cases cur <;> exact stay h rfl (by simp [TxState.needsAn])
  case disable => cases cur <;> exact stay h rfl (by simp [TxState.needsAn])
  case linkDown => cases cur <;> exact stay h rfl (by simp [TxState.needsAn])
  case phyDown => cases cur <;> exact stay h rfl (by simp [TxState.needsAn])

/-- How many entry actions a dispatch makes at most, once it enters a state (41_event_queue.md R158). -/
def TxState.rank : TxState → Nat
  | .linkIntegrityCheck => 4
  | .determineRxCapable => 3
  | .exchangeKsvs | .testForRepeater | .readKsvList => 2
  | .disabled | .computations | .validateRx | .authenticated | .waitForReady | .unauthenticated | .phyDown => 1

/-- Each edge of a transient state goes down (41_event_queue.md R158: "this graph has no cycle"). -/
theorem txEdge_rank : ∀ st n : TxState, txEdge st n = true → n = st ∨ n.rank < st.rank := by
  intro st n; cases st <;> cases n <;> decide

/-- An entry action that chooses its own state is a resting state's. -/
theorem txEdge_self : ∀ st : TxState, txEdge st st = true → st.resting = true := by
  intro st; cases st <;> decide

theorem txEdge_needsAn : ∀ st n : TxState, txEdge st n = true → n ≠ st → n.needsAn = true →
    (n = .computations ∧ st = .exchangeKsvs) ∨ st.needsAn = true := by
  intro st n; cases st <;> cases n <;> decide

theorem TxState.needsAn_resting : ∀ st : TxState, st.resting = true → st.needsAn = st.attemptRunning := by
  intro st; cases st <;> decide

theorem State.txEvolves_moveTx (s : State) (st : TxState) : s.txEvolves (s.moveTx st) :=
  ⟨s.answers, s.draws, [], (s.moveTx st).tx, s.pendingEvents, s.phyUp, s.callbacks, s.timer, by
    simp [State.moveTx, State.setTx], rfl, .inl rfl, .inl rfl, id⟩

theorem State.txEvolves_txExit (s : State) (st : TxState) : s.txEvolves (txExit st s) := by
  rw [txExit_eq]
  refine ⟨s.answers, s.draws, txExitRequests s.params st, s.tx, s.pendingEvents, s.phyUp, _, _, rfl, rfl, .inl rfl, ?_,
    id⟩
  by_cases h : st = .disabled
  · exact .inr (if_pos h)
  · exact .inl (if_neg h)

/-- The loop only evolves the state, and ends in the state it left or in one reached by an entry action, with a legal
`PreviousState` (41_event_queue.md R156, R157). -/
theorem txChain_spec {b : Nat} {cur next : TxState} {s t : State} (h : txChain b cur next s = .ok t)
    (hc : s.tx.currentState = cur.code) :
    s.txEvolves t ∧ ∃ fin : TxState, t.tx.currentState = fin.code ∧
      ((next = cur ∧ t = s) ∨
        (next ≠ cur ∧ fin.resting = true ∧ ∃ p : TxState, t.tx.previousState = p.code)) := by
  induction b generalizing cur next s with
  | zero =>
    unfold txChain at h
    split at h
    · next e => cases h; exact ⟨State.txEvolves_refl _, cur, hc, .inl ⟨e, rfl⟩⟩
    · cases h
  | succ b ih =>
    unfold txChain at h
    split at h
    · next e => cases h; exact ⟨State.txEvolves_refl _, cur, hc, .inl ⟨e, rfl⟩⟩
    · next e =>
      obtain ⟨⟨n, s1⟩, h1, h⟩ := bind_eq_ok h
      obtain ⟨v, he, c1, -⟩ := txEnter_spec h1
      obtain ⟨v2, fin, hf, hr⟩ := ih h rfl
      refine ⟨State.txEvolves_trans (s.txEvolves_txExit cur) (State.txEvolves_trans v
        (State.txEvolves_trans (s1.txEvolves_moveTx next) v2)), ?_⟩
      rcases hr with ⟨rfl, rfl⟩ | ⟨hne, hr, hp⟩
      · refine ⟨n, rfl, .inr ⟨e, txEdge_self _ he, cur, ?_⟩⟩
        simp only [State.moveTx, State.setTx_tx, c1, txExit_eq, hc]
      · exact ⟨fin, hf, .inr ⟨e, hr, hp⟩⟩

/-- The loop keeps what a sound Tx promises of `An` and the timer (43_tx_procedures.md R224, 60_exceptions.md R334). -/
theorem txChain_sound {b : Nat} {cur next fin : TxState} {s t : State} (h : txChain b cur next s = .ok t)
    (hl : s.params.literals.anFallback ≠ 0#64) (hc : s.tx.currentState = cur.code)
    (hf : t.tx.currentState = fin.code) (hn : next ≠ cur → next.needsAn = true → s.tx.an ≠ 0#64)
    (hs : next = cur → (s.tx.an ≠ 0#64 ↔ cur.attemptRunning = true))
    (ht : s.params.hooks.timerStop = true → s.timer ≠ none → cur.timed = true) :
    (t.tx.an ≠ 0#64 ↔ fin.attemptRunning = true) ∧
      (t.params.hooks.timerStop = true → t.timer ≠ none → fin.timed = true) := by
  induction b generalizing cur next s with
  | zero =>
    unfold txChain at h
    split at h
    · next e =>
      cases h
      rw [hc] at hf
      have := TxState.code_inj hf
      subst this
      exact ⟨hs e, ht⟩
    · cases h
  | succ b ih =>
    unfold txChain at h
    split at h
    · next e =>
      cases h
      rw [hc] at hf
      have := TxState.code_inj hf
      subst this
      exact ⟨hs e, ht⟩
    · next e =>
      obtain ⟨⟨n, s1⟩, h1, h⟩ := bind_eq_ok h
      obtain ⟨v, he, -, -, a1, a2, a3, tm⟩ := txEnter_spec h1
      have hn := hn e
      have hp : s1.params = s.params := by
        have := State.txEvolves_params v
        simpa [txExit_eq] using this
      refine ih h (by show s1.params.literals.anFallback ≠ 0#64; rw [hp]; exact hl) rfl ?_ ?_ ?_
      · intro hne hna
        show s1.tx.an ≠ 0#64
        rcases txEdge_needsAn _ _ he hne hna with ⟨rfl, rfl⟩ | hst
        · exact a3 rfl rfl (by simpa [txExit_eq] using hl)
        · exact a1 hst (by simpa [txExit_eq] using hn hst)
      · rintro rfl
        show s1.tx.an ≠ 0#64 ↔ _
        have hr := txEdge_self _ he
        rw [← TxState.needsAn_resting _ hr]
        constructor
        · intro h0
          by_contra hh
          exact h0 (a2 (by simpa using hh) hr)
        · intro hh
          exact a1 hh (by simpa [txExit_eq] using hn hh)
      · intro hk hne
        change s1.params.hooks.timerStop = true at hk
        change s1.timer ≠ none at hne
        rw [hp] at hk
        have h0 : (txExit cur s).timer = none := by
          simp only [txExit_eq, txExitTimer, stoppedTimer, hk, if_true]
          split
          · rfl
          · next hnt =>
            by_contra hh
            exact hnt (ht hk hh)
        rcases tm with tm | ⟨-, tm⟩ | tm
        · exact absurd (tm.trans h0) hne
        · exact absurd (by rw [tm, h0]; simp [stoppedTimer]) hne
        · exact tm

/-- The loop's bound of four entry actions is enough: it never faults for it (41_event_queue.md R158). -/
theorem txChain_bound {b : Nat} {cur next : TxState} {s : State} (h : next = cur ∨ next.rank ≤ b)
    (g : ∀ st u, txEnter st u ≠ .error .chainTooLong) : txChain b cur next s ≠ .error .chainTooLong := by
  induction b generalizing cur next s with
  | zero =>
    unfold txChain
    rcases h with rfl | h
    · simp
    · cases next <;> simp [TxState.rank] at h
  | succ b ih =>
    unfold txChain
    split
    · simp
    · next e =>
      have hr : next.rank ≤ b + 1 := h.resolve_left e
      intro hc
      generalize hx : txEnter next (txExit cur s) = r at hc
      cases r with
      | error f => cases hc; exact g _ _ hx
      | ok p =>
        obtain ⟨n, s1⟩ := p
        refine ih ?_ hc
        rcases txEdge_rank _ _ (txEnter_spec hx).2.1 with rfl | hlt
        · exact .inl rfl
        · exact .inr (by omega)

theorem State.txEvolves_updatePhyTx (s : State) (e : TxEvent) : s.txEvolves (s.updatePhyTx e) := by
  cases e <;> first
    | exact s.txEvolves_refl
    | exact ⟨s.answers, s.draws, [], s.tx, s.pendingEvents, _, s.callbacks, s.timer, by
        simp [State.updatePhyTx, State.setPhyUp]; rfl, rfl, .inl rfl, .inl rfl, id⟩

@[simp] theorem State.updatePhyTx_tx (s : State) (e : TxEvent) : (s.updatePhyTx e).tx = s.tx := by cases e <;> rfl
@[simp] theorem State.updatePhyTx_params (s : State) (e : TxEvent) : (s.updatePhyTx e).params = s.params := by
  cases e <;> rfl
@[simp] theorem State.updatePhyTx_timer (s : State) (e : TxEvent) : (s.updatePhyTx e).timer = s.timer := by
  cases e <;> rfl

/-- The parts of a dispatch (41_event_queue.md R156). -/
theorem txDispatch_cases {e : TxEvent} {s t : State} (h : txDispatch e s = .ok t) :
    ∃ cur : TxState, s.tx.currentState = cur.code ∧ (txStateOf s.tx.previousState).isSome = true ∧
      ∃ n u, txRun e cur (s.updatePhyTx e) = .ok (n, u) ∧ txChain chainBound cur n u = .ok t := by
  unfold txDispatch at h
  simp only at h
  obtain ⟨cur, hc, h⟩ := bind_eq_ok h
  unfold txCurrent at hc
  split at hc
  · next st hst =>
    cases hc
    rw [State.updatePhyTx_tx] at hst h
    split at h
    · cases h
    · next hp =>
      obtain ⟨⟨n, u⟩, hr, h⟩ := bind_eq_ok h
      refine ⟨_, code_of_txStateOf _ _ hst, ?_, n, u, hr, h⟩
      cases hq : txStateOf s.tx.previousState <;> simp_all
  · cases hc

/-- A dispatch only evolves the state. -/
theorem txDispatch_evolves {e : TxEvent} {s t : State} (h : txDispatch e s = .ok t) : s.txEvolves t := by
  obtain ⟨cur, hc, -, n, u, hr, h⟩ := txDispatch_cases h
  obtain ⟨v, c, -⟩ := txRun_spec hr
  exact State.txEvolves_trans (s.txEvolves_updatePhyTx e) (State.txEvolves_trans v
    (txChain_spec h (by rw [c]; simpa using hc)).1)

/-- A dispatch keeps a Tx sound (43_tx_procedures.md R224, 41_event_queue.md R158). -/
theorem txDispatch_sound {e : TxEvent} {s t : State} (h : txDispatch e s = .ok t) (hs : s.txSound) : t.txSound := by
  have ev := txDispatch_evolves h
  obtain ⟨cur, hc, hp, n, u, hr, h⟩ := txDispatch_cases h
  obtain ⟨hl, st, ⟨h1, h2, h3⟩, h4, h5, h6⟩ := hs
  rw [hc] at h1
  have := TxState.code_inj h1
  subst this
  clear h1
  obtain ⟨v, c, p, a, tm, nd⟩ := txRun_spec hr
  simp only [State.updatePhyTx_tx, State.updatePhyTx_timer] at c p a tm
  have hpar : u.params = s.params := by simpa using State.txEvolves_params v
  obtain ⟨-, fin, hf, hcase⟩ := txChain_spec h (c.trans hc)
  have key := txChain_sound h (by rw [hpar]; exact hl) (c.trans hc) hf
    (fun hne hna => by rw [a]; exact h5.mpr (nd hne hna))
    (fun _ => by rw [a]; exact h5)
    (by rw [hpar, tm]; exact h6)
  refine ⟨by rw [State.txEvolves_params ev]; exact hl, fin, ⟨hf, ?_, ?_⟩, State.txEvolves_fits ev h4, key⟩
  · rcases hcase with ⟨rfl, rfl⟩ | ⟨-, hr, -⟩
    · rw [c, hc] at hf
      rw [← TxState.code_inj hf]; exact h2
    · exact hr
  · rcases hcase with ⟨rfl, rfl⟩ | ⟨-, -, q, hq⟩
    · rw [p]; exact h3
    · rw [hq]; simp

end Sys2Proof.Machine
end

