-- ==== Sys2Proof/Laws/Commands.lean ====
section
/-! SUPPORT. What a drain, an instruction and a step can do, said once: a property that each of their parts keeps is kept
by the whole (41_event_queue.md R153, 40_commands.md). -/

namespace Sys2Proof.Machine

/-- `P` is kept by every part of a step but the bodies of `CFGINIT`, `ENENC` and `DISENC`. -/
structure Kept (P : State → Prop) : Prop where
  /-- A command's result. -/
  result : ∀ s r, P s → P (s.setResult r)
  /-- A word or an interrupt is taken from outside. -/
  inputs : ∀ s l, P s → P (s.setInputs l)
  /-- An interruption point is passed. -/
  arrivals : ∀ s l, P s → P (s.setArrivals l)
  /-- An interrupt is taken. -/
  interrupt : ∀ s i, P s → P (s.takeInterrupt i)
  /-- A command posts its event. -/
  post : ∀ s t r, P s → P (s.postFor t r)
  /-- `TIMEOUT` posts. -/
  timeout : ∀ s, P s → P s.postTimeout
  /-- A drain takes `PendingEvents`. -/
  clear : ∀ s, P s → P (s.setPending 0#16)
  /-- An event is dispatched on a Tx. -/
  dispatchTx : ∀ s t e, s.params.direction = .tx → txDispatch e s = .ok t → P s → P t
  /-- An event is dispatched on an Rx. -/
  dispatchRx : ∀ s t e, s.params.direction = .rx → rxDispatch e s = .ok t → P s → P t
  /-- `SETLANES`. -/
  lanes : ∀ s n, P s → P (s.issue (.cipherSetLaneCount n))
  /-- `SETKEYSEL`. -/
  keys : ∀ s n, P s → P (s.issue (.cipherSetKeySelect n))
  /-- `INFO`. -/
  info : ∀ s, P s → P (s.takeAnswer s.answers)
  /-- `GETENC` on an Rx. -/
  getenc : ∀ s, s.params.direction = .rx → P s → P s.cipherGetEncryption.2

/-- `P` is kept by every part of a step. -/
structure KeptAll (P : State → Prop) : Prop extends Kept P where
  /-- `CFGINIT`. -/
  init : ∀ s, P s → P (initialise s)
  /-- `ENENC` on a Tx. -/
  enenc : ∀ s t m r, s.params.direction = .tx → enencBody m s = .ok (r, t) → P s → P t
  /-- `DISENC` on a Tx. -/
  disenc : ∀ s t m r, s.params.direction = .tx → disencBody m s = .ok (r, t) → P s → P t

variable {P : State → Prop}

theorem Kept.foldInterrupts (k : Kept P) (l : List Interrupt) : ∀ s, P s → P (l.foldl State.takeInterrupt s) := by
  induction l with
  | nil => exact fun _ h => h
  | cons i l ih => exact fun s h => ih _ (k.interrupt s i h)

theorem Kept.arrive (k : Kept P) {s : State} (h : P s) : P s.arrive := by
  unfold State.arrive
  split
  · exact h
  · exact k.foldInterrupts _ _ (k.arrivals _ _ h)

@[simp] theorem State.arrive_params (s : State) : s.arrive.params = s.params := by
  obtain ⟨p, t, l, h, -⟩ := s.arrive_eq; rw [h]; rfl

theorem Kept.txDrain (k : Kept P) {snap : Half} {l : List TxEvent} :
    ∀ {s t : State}, txDrain snap l s = .ok t → s.params.direction = .tx → P s → P t := by
  induction l with
  | nil => intro s t h _ p; cases h; exact p
  | cons e l ih =>
    intro s t h d p
    unfold Machine.txDrain at h
    split at h
    · exact ih h d p
    · obtain ⟨u, hu, h⟩ := bind_eq_ok h
      have d' : s.arrive.params.direction = .tx := by rw [State.arrive_params]; exact d
      refine ih h ?_ (k.dispatchTx _ _ _ d' hu (k.arrive p))
      rw [State.txEvolves_params (txDispatch_evolves hu)]; exact d'

theorem Kept.rxDrain (k : Kept P) {snap : Half} {l : List RxEvent} :
    ∀ {s t : State}, rxDrain snap l s = .ok t → s.params.direction = .rx → P s → P t := by
  induction l with
  | nil => intro s t h _ p; cases h; exact p
  | cons e l ih =>
    intro s t h d p
    unfold Machine.rxDrain at h
    split at h
    · exact ih h d p
    · obtain ⟨u, hu, h⟩ := bind_eq_ok h
      have d' : s.arrive.params.direction = .rx := by rw [State.arrive_params]; exact d
      refine ih h ?_ (k.dispatchRx _ _ _ d' hu (k.arrive p))
      rw [State.rxEvolves_params (rxDispatch_evolves hu)]; exact d'

/-- A drain keeps `P` (41_event_queue.md R153). -/
theorem Kept.drain (k : Kept P) {s t : State} (h : drain s = .ok t) (p : P s) : P t := by
  unfold Machine.drain dispatchSnapshot at h
  simp only at h
  have p' := k.clear _ (k.arrive p)
  split at h
  · split at h
    · next d => exact k.txDrain h d p'
    · next d => exact k.rxDrain h d p'
  · cases h

theorem Kept.succeedDrain (k : Kept P) {s t : State} {r : Result} (h : succeed (Machine.drain s) = .ok (r, t))
    (p : P s) : P t :=
  k.drain (succeed_eq_ok h).2 p

theorem Kept.eventTx (k : Kept P) {e : TxEvent} {s t : State} (h : eventFrame .tx (txDispatch e) s = .next t)
    (p : P s) : P t :=
  k.dispatchTx _ _ _ (eventFrame_cases h).1 (eventFrame_cases h).2 p

theorem Kept.eventRx (k : Kept P) {e : RxEvent} {s t : State} (h : eventFrame .rx (rxDispatch e) s = .next t)
    (p : P s) : P t :=
  k.dispatchRx _ _ _ (eventFrame_cases h).1 (eventFrame_cases h).2 p

theorem Kept.command (k : Kept P) {body : State → Except Fault (Result × State)} {s t : State}
    (h : commandFrame body s = .next t) (p : P s) (hb : ∀ r u, body s = .ok (r, u) → P u) : P t := by
  rcases commandFrame_cases h with ⟨rfl, -⟩ | ⟨-, r, u, hu, rfl⟩
  · exact k.result _ _ p
  · exact k.result _ _ (hb r u hu)

/-- What `CFGINIT` leaves of a Tx: the reset values (70_reset_and_hazards.md R350), and what the interruption point
inside it made of `PendingEvents` and the timer. -/
theorem initialise_tx {s : State} (h : s.params.direction = .tx) :
    ∃ p t l, (resetRegisters s).arrive = (((resetRegisters s).setArrivals l).setTimer t).setPending p ∧
      (t = s.timer ∨ t = none) ∧
      initialise s = { s with
        tx := .reset, pendingEvents := p, phyUp := s.params.phyUpAtReset, ready := true, callbacks := .none
        timer := stoppedTimer s.params t, arrivals := l, requests := s.requests ++ txDisabledRequests s.params } := by
  obtain ⟨p, t, l, e, ht⟩ := (resetRegisters s).arrive_eq
  refine ⟨p, t, l, e, by simpa [resetRegisters, h] using ht, ?_⟩
  unfold initialise
  rw [e]
  cases hh : s.params.hooks.timerStop <;>
    simp [resetRegisters, enterDisabledActions, h, txEnterDisabled, State.stopTimer, hh, stoppedTimer,
      txDisabledRequests, stopRequests, State.issue, State.setTx, State.setPending, State.setPhyUp, State.setArrivals,
      State.setTimer, State.setCallbacks, State.setReady, TxRegs.reset, TxStats.zero]

/-- What `CFGINIT` leaves of an Rx. -/
theorem initialise_rx {s : State} (h : s.params.direction = .rx) :
    ∃ p t l, (resetRegisters s).arrive = (((resetRegisters s).setArrivals l).setTimer t).setPending p ∧
      (t = s.timer ∨ t = none) ∧
      initialise s = { s with
        rx := .reset, pendingEvents := p, phyUp := s.params.phyUpAtReset, ready := true, callbacks := .none
        timer := t, arrivals := l, requests := s.requests ++ [.portDisable, .cipherDisable] } := by
  obtain ⟨p, t, l, e, ht⟩ := (resetRegisters s).arrive_eq
  refine ⟨p, t, l, e, by simpa [resetRegisters, h] using ht, ?_⟩
  unfold initialise
  rw [e]
  simp [resetRegisters, enterDisabledActions, h, rxEnterDisabled, State.issue, State.setRx,
    State.setPending, State.setPhyUp, State.setArrivals, State.setTimer, State.setCallbacks, State.setReady,
    RxRegs.reset]

/-- Every instruction keeps `P`, if the bodies of `CFGINIT`, `ENENC` and `DISENC` do. -/
theorem Kept.exec (k : Kept P) {i : Instr} {s t : State} (h : exec i s = .next t)
    (hi : i = .cfginit → P (initialise s))
    (he : ∀ m r u, i = .enenc m → s.params.direction = .tx → enencBody m s = .ok (r, u) → P u)
    (hd : ∀ m r u, i = .disenc m → s.params.direction = .tx → disencBody m s = .ok (r, u) → P u) (p : P s) :
    P t := by
  cases i <;> simp only [Machine.exec] at h
  case cfginit =>
    rcases initFrame_cases h with ⟨rfl, -⟩ | ⟨-, r, u, hu, rfl⟩
    · exact k.result _ _ p
    · cases hu; exact k.result _ _ (hi rfl)
  case poll => exact k.command h p fun r u hu => k.succeedDrain hu (k.post _ _ _ p)
  case reset =>
    refine k.command h p fun r u hu => ?_
    unfold resetBody at hu
    obtain ⟨s1, h1, hu⟩ := bind_eq_ok hu
    exact k.succeedDrain hu (k.post _ _ _ (k.drain h1 (k.post _ _ _ p)))
  case enable => exact k.command h p fun r u hu => k.succeedDrain hu (k.post _ _ _ p)
  case disable => exact k.command h p fun r u hu => k.succeedDrain hu (k.post _ _ _ p)
  case setphy up =>
    refine k.command h p fun r u hu => k.succeedDrain hu ?_
    cases up
    · exact k.post _ _ _ p
    · exact k.post _ _ _ p
  case setlanes n => exact k.command h p fun r u hu => by cases hu; exact k.lanes _ _ p
  case auth => exact k.command h p fun r u hu => k.succeedDrain hu (k.post _ _ _ p)
  case isinprog =>
    refine k.command h p fun r u hu => ?_
    unfold isinprogBody at hu
    split at hu <;> (obtain ⟨st, -, e⟩ := map_eq_ok hu; cases e; exact p)
  case isauth =>
    refine k.command h p fun r u hu => ?_
    unfold isauthBody at hu
    split at hu <;> (obtain ⟨st, -, e⟩ := map_eq_ok hu; cases e; exact p)
  case getenc =>
    refine k.command h p fun r u hu => ?_
    unfold getencBody at hu
    split at hu
    · cases hu; exact p
    · next d => cases hu; exact k.getenc _ d p
  case enenc m =>
    refine k.command h p fun r u hu => ?_
    cases d : s.params.direction
    · exact he _ _ _ rfl d hu
    · unfold enencBody at hu
      rw [d] at hu
      cases hu; exact p
  case disenc m =>
    refine k.command h p fun r u hu => ?_
    cases d : s.params.direction
    · exact hd _ _ _ rfl d hu
    · unfold disencBody at hu
      rw [d] at hu
      cases hu; exact p
  case setkeysel n => exact k.command h p fun r u hu => by cases hu; exact k.keys _ _ p
  case timeout => exact k.command h p fun r u hu => by cases hu; exact k.timeout _ p
  case info => exact k.command h p fun r u hu => by cases hu; exact k.info _ p
  case getver => exact k.command h p fun r u hu => by cases hu; exact p
  case txAuthenticate => exact k.eventTx h p
  case txCheck => exact k.eventTx h p
  case txDisable => exact k.eventTx h p
  case txEnable => exact k.eventTx h p
  case txLinkdown => exact k.eventTx h p
  case txPhydown => exact k.eventTx h p
  case txPhyup => exact k.eventTx h p
  case txPoll => exact k.eventTx h p
  case txTimeout => exact k.eventTx h p
  case rxAuthenticate => exact k.eventRx h p
  case rxCheck => exact k.eventRx h p
  case rxDisable => exact k.eventRx h p
  case rxEnable => exact k.eventRx h p
  case rxPhydown => exact k.eventRx h p
  case rxPhyup => exact k.eventRx h p
  case rxPoll => exact k.eventRx h p
  case rxUpdateRi => exact k.eventRx h p

/-- Every step keeps `P`. -/
theorem KeptAll.step (k : KeptAll P) {s t : State} (h : step s = .next t) (p : P s) : P t := by
  unfold Machine.step at h
  split at h
  · cases h; exact p
  · cases h; exact k.interrupt _ _ (k.inputs _ _ p)
  · split at h
    · exact k.exec h (fun _ => k.init _ (k.inputs _ _ p)) (fun _ _ _ _ d g => k.enenc _ _ _ _ d g (k.inputs _ _ p))
        (fun _ _ _ _ d g => k.disenc _ _ _ _ d g (k.inputs _ _ p)) (k.inputs _ _ p)
    · next e _ =>
      cases e <;> simp only [rejectedWord] at h
      · cases h; exact k.result _ _ (k.inputs _ _ p)
      · cases h; exact k.result _ _ (k.inputs _ _ p)
      · cases h
      · cases h; exact k.inputs _ _ p

end Sys2Proof.Machine
end

