-- ==== Sys2Proof/Laws/PerInstr.lean ====
section
/-! SUPPORT. The family `EncodingMatchesTable`: an instruction's encoding has the fixed bits of its row of
spec/opcode_table.json. -/

namespace Sys2Proof.Laws.EncodingMatchesTable

/-- The bits of a fetch word, in the numbering of spec/opcode_table.json. -/
def bits : FetchWord → BitVec 72
  | .command w => w
  | .events w => w.setWidth 72

/-- The mask and the match of an instruction's row. -/
def row : Instr → BitVec 72 × BitVec 72
  | .cfginit => (0xffffffffffffffffff#72, 0x1#72)
  | .poll => (0xffffffffffffffffff#72, 0x2#72)
  | .reset => (0xffffffffffffffffff#72, 0x3#72)
  | .enable => (0xffffffffffffffffff#72, 0x4#72)
  | .disable => (0xffffffffffffffffff#72, 0x5#72)
  | .setphy _ => (0xfffffffffffffffeff#72, 0x6#72)
  | .setlanes _ => (0xffffffffffffff00ff#72, 0x7#72)
  | .auth => (0xffffffffffffffffff#72, 0x8#72)
  | .isinprog => (0xffffffffffffffffff#72, 0x9#72)
  | .isauth => (0xffffffffffffffffff#72, 0xa#72)
  | .getenc => (0xffffffffffffffffff#72, 0xb#72)
  | .enenc _ => (0xff#72, 0xc#72)
  | .disenc _ => (0xff#72, 0xd#72)
  | .setkeysel _ => (0xffffffffffffff00ff#72, 0xe#72)
  | .timeout => (0xffffffffffffffffff#72, 0xf#72)
  | .info => (0xffffffffffffffffff#72, 0x10#72)
  | .getver => (0xffffffffffffffffff#72, 0x11#72)
  | .txAuthenticate => (0x2#72, 0x2#72)
  | .txCheck => (0x4#72, 0x4#72)
  | .txDisable => (0x8#72, 0x8#72)
  | .txEnable => (0x10#72, 0x10#72)
  | .txLinkdown => (0x20#72, 0x20#72)
  | .txPhydown => (0x40#72, 0x40#72)
  | .txPhyup => (0x80#72, 0x80#72)
  | .txPoll => (0x100#72, 0x100#72)
  | .txTimeout => (0x200#72, 0x200#72)
  | .rxAuthenticate => (0x2#72, 0x2#72)
  | .rxCheck => (0x4#72, 0x4#72)
  | .rxDisable => (0x8#72, 0x8#72)
  | .rxEnable => (0x10#72, 0x10#72)
  | .rxPhydown => (0x20#72, 0x20#72)
  | .rxPhyup => (0x40#72, 0x40#72)
  | .rxPoll => (0x80#72, 0x80#72)
  | .rxUpdateRi => (0x100#72, 0x100#72)

/-- The encoding, masked by the row's mask, is the row's match. -/
def Statement (i : Instr) : Prop := bits (encode i) &&& (row i).1 = (row i).2

/-- A zero-extended operand field and an opcode keep the bits outside the operand's width. -/
theorem commandWord_and (op : Byte) (x m y : Wide) (h : x &&& m = y) :
    commandWord op x &&& commandWord 0xFF#8 m = commandWord op y := by
  subst h
  have e : op &&& 0xFF#8 = op := BitVec.and_allOnes
  unfold commandWord
  rw [BitVec.and_append, e]

/-- A byte operand has no bit above bit 7. -/
theorem byte_masked (n : Byte) : n.setWidth 64 &&& 0xFFFFFFFFFFFFFF00#64 = 0#64 := by
  revert n
  decide

/-- `CFGINIT`. -/
theorem cfginit : Statement .cfginit := by unfold Statement; decide

/-- `POLL`. -/
theorem poll : Statement .poll := by unfold Statement; decide

/-- `RESET`. -/
theorem reset : Statement .reset := by unfold Statement; decide

/-- `ENABLE`. -/
theorem enable : Statement .enable := by unfold Statement; decide

/-- `DISABLE`. -/
theorem disable : Statement .disable := by unfold Statement; decide

/-- `SETPHY`. -/
theorem setphy (u : Bool) : Statement (.setphy u) := by
  unfold Statement
  revert u
  decide

/-- `SETLANES`. -/
theorem setlanes (n : Byte) : Statement (.setlanes n) :=
  commandWord_and 0x07#8 _ 0xFFFFFFFFFFFFFF00#64 0#64 (byte_masked n)

/-- `AUTH`. -/
theorem auth : Statement .auth := by unfold Statement; decide

/-- `ISINPROG`. -/
theorem isinprog : Statement .isinprog := by unfold Statement; decide

/-- `ISAUTH`. -/
theorem isauth : Statement .isauth := by unfold Statement; decide

/-- `GETENC`. -/
theorem getenc : Statement .getenc := by unfold Statement; decide

/-- `ENENC`. -/
theorem enenc (map : Wide) : Statement (.enenc map) :=
  commandWord_and 0x0C#8 map 0#64 0#64 (BitVec.and_zero)

/-- `DISENC`. -/
theorem disenc (map : Wide) : Statement (.disenc map) :=
  commandWord_and 0x0D#8 map 0#64 0#64 (BitVec.and_zero)

/-- `SETKEYSEL`. -/
theorem setkeysel (n : Byte) : Statement (.setkeysel n) :=
  commandWord_and 0x0E#8 _ 0xFFFFFFFFFFFFFF00#64 0#64 (byte_masked n)

/-- `TIMEOUT`. -/
theorem timeout : Statement .timeout := by unfold Statement; decide

/-- `INFO`. -/
theorem info : Statement .info := by unfold Statement; decide

/-- `GETVER`. -/
theorem getver : Statement .getver := by unfold Statement; decide

/-- `TX_EVENT.AUTHENTICATE`. -/
theorem txAuthenticate : Statement .txAuthenticate := by unfold Statement; decide

/-- `TX_EVENT.CHECK`. -/
theorem txCheck : Statement .txCheck := by unfold Statement; decide

/-- `TX_EVENT.DISABLE`. -/
theorem txDisable : Statement .txDisable := by unfold Statement; decide

/-- `TX_EVENT.ENABLE`. -/
theorem txEnable : Statement .txEnable := by unfold Statement; decide

/-- `TX_EVENT.LINKDOWN`. -/
theorem txLinkdown : Statement .txLinkdown := by unfold Statement; decide

/-- `TX_EVENT.PHYDOWN`. -/
theorem txPhydown : Statement .txPhydown := by unfold Statement; decide

/-- `TX_EVENT.PHYUP`. -/
theorem txPhyup : Statement .txPhyup := by unfold Statement; decide

/-- `TX_EVENT.POLL`. -/
theorem txPoll : Statement .txPoll := by unfold Statement; decide

/-- `TX_EVENT.TIMEOUT`. -/
theorem txTimeout : Statement .txTimeout := by unfold Statement; decide

/-- `RX_EVENT.AUTHENTICATE`. -/
theorem rxAuthenticate : Statement .rxAuthenticate := by unfold Statement; decide

/-- `RX_EVENT.CHECK`. -/
theorem rxCheck : Statement .rxCheck := by unfold Statement; decide

/-- `RX_EVENT.DISABLE`. -/
theorem rxDisable : Statement .rxDisable := by unfold Statement; decide

/-- `RX_EVENT.ENABLE`. -/
theorem rxEnable : Statement .rxEnable := by unfold Statement; decide

/-- `RX_EVENT.PHYDOWN`. -/
theorem rxPhydown : Statement .rxPhydown := by unfold Statement; decide

/-- `RX_EVENT.PHYUP`. -/
theorem rxPhyup : Statement .rxPhyup := by unfold Statement; decide

/-- `RX_EVENT.POLL`. -/
theorem rxPoll : Statement .rxPoll := by unfold Statement; decide

/-- `RX_EVENT.UPDATE_RI`. -/
theorem rxUpdateRi : Statement .rxUpdateRi := by unfold Statement; decide

end Sys2Proof.Laws.EncodingMatchesTable
end

