-- ==== Sys2Proof/Tests/Slice0.lean ====
section
/-! SUPPORT. The model's own tests. Each expected value is written out from the spec, and the comment names where.
Where a test's hypotheses stand for a statement's, its name begins with `test_meets_`. -/

namespace Sys2Proof.Tests

open Sys2Proof Sys2Proof.Machine

/-! ## Small states -/

/-- A Tx under `HDMI` with a KSV chunk of 4 bytes (95_test_vectors.md P4). -/
def txParams : Params :=
  { direction := .tx, txPresent := true, rxPresent := true, protocol := .hdmi, portMap := portMapHdmi, ksvChunk := 4,
    phyUpAtReset := true, wfrPollOnPoll := true, version := 0x00010203#32, statWidth := 32,
    hooks := { isKsvRevoked := true, timerStart := true, timerStop := true, timerBusyDelay := true }
    literals := statedLiterals }

/-- An Rx under protocol `p`. -/
def rxParams (p : Protocol) : Params := { txParams with direction := .rx, protocol := p }

/-- A ready Tx in `st` with these answers to come. -/
def txIs (st : TxState) (a : Answers := .none) : State :=
  { State.powerOn txParams with ready := true, tx := { TxRegs.reset with currentState := st.code }, answers := a }

/-- A ready Rx in `st` with these answers to come. -/
def rxIs (st : RxState) (a : Answers := .none) (p : Protocol := .hdmi) : State :=
  { State.powerOn (rxParams p) with ready := true, rx := { RxRegs.reset with currentState := st.code }, answers := a }

/-- The next state of an outcome. -/
def after : Host.Outcome State Fault Refusal → Option State
  | .next s => some s
  | .fault _ => none
  | .refused _ => none

/-- What a test looks at in a Tx: states, events pending, statistics. -/
def txLook (s : State) : BitVec 4 × BitVec 4 × Half × TxStats :=
  (s.tx.currentState, s.tx.previousState, s.pendingEvents, s.tx.stats)

/-- What a test looks at in an Rx: states, events pending, the counter. -/
def rxLook (s : State) : BitVec 3 × BitVec 3 × Half × Nat :=
  (s.rx.currentState, s.rx.previousState, s.pendingEvents, s.rx.riUpdates)

/-- A complete read of these bytes. -/
abbrev whole (l : List Byte) : ReadAnswer := wholeRead l

/-- A read that came short with `k`. -/
def short (k : Int) : ReadAnswer := { count := k, bytes := [] }

/-- `0xB70361F714` as the port gives it (95_test_vectors.md V11). -/
def bksv : List Byte := [0x14#8, 0xF7#8, 0x61#8, 0x03#8, 0xB7#8]

/-- `0xCD1AF21E51` as the port gives it (95_test_vectors.md V11). -/
def aksv : List Byte := [0x51#8, 0x1E#8, 0xF2#8, 0x1A#8, 0xCD#8]

/-- `AN_FALLBACK` as the port gives it (95_test_vectors.md V11). -/
def anBytesV11 : List Byte := [0x4D#8, 0xA7#8, 0x06#8, 0x54#8, 0x17#8, 0xF7#8, 0x51#8, 0x03#8]

/-! ## WellFormed refuses what it must -/

theorem test_rx_event_ill_formed_for_tx : Instr.wf .tx .rxUpdateRi = false := by decide

theorem test_tx_event_ill_formed_for_rx : Instr.wf .rx .txTimeout = false := by decide

theorem test_command_well_formed_for_both : Instr.wf .tx .poll = true ∧ Instr.wf .rx .poll = true := by decide

theorem test_params_well_formed : txParams.wf = true ∧ (rxParams .dp).wf = true := by decide

theorem test_chunk_zero_refused : Params.wf { txParams with ksvChunk := 0 } = false := by decide

theorem test_chunk_256_refused : Params.wf { txParams with ksvChunk := 256 } = false := by decide

theorem test_width_zero_refused : Params.wf { txParams with statWidth := 0 } = false := by decide

/-- `AN` at 0xF9 would end at 0x100 (20_memory.md R71). -/
theorem test_port_map_past_end_refused :
    Params.wf { txParams with portMap := { portMapHdmi with an := 0xF9#8 } } = false ∧
      Params.wf { txParams with portMap := { portMapHdmi with an := 0xF8#8 } } = true := by decide

/-- Zero would not be a fallback for `An`, and there are five `VH` registers (43_tx_procedures.md R213, 20_memory.md
R61). -/
theorem test_literals_refused :
    Params.wf { txParams with literals := { statedLiterals with anFallback := 0#64 } } = false ∧
      Params.wf { txParams with literals := { statedLiterals with vPrimeWords := 6 } } = false ∧
      Params.wf { txParams with literals := { statedLiterals with anFallback := 1#64, nRetry := 4 } } = true := by
  decide

/-! ## Decoding: 95_test_vectors.md V20, V21 and the bit numbers of 30_encoding.md R93, R94 -/

theorem test_decode_plain_commands :
    ([0x000000000000000001#72, 0x000000000000000002#72, 0x000000000000000003#72, 0x000000000000000004#72,
      0x000000000000000005#72, 0x000000000000000008#72, 0x000000000000000009#72, 0x00000000000000000A#72,
      0x00000000000000000B#72, 0x00000000000000000F#72, 0x000000000000000010#72, 0x000000000000000011#72].map
        fun w => (decodeCommand w).toOption) =
    [some .cfginit, some .poll, some .reset, some .enable, some .disable, some .auth, some .isinprog, some .isauth,
      some .getenc, some .timeout, some .info, some .getver] := by decide

theorem test_decode_operand_commands :
    ([0x000000000000000106#72, 0x000000000000000006#72, 0x000000000000000407#72, 0x00000000000000010C#72,
      0x00000000000000030C#72, 0xFFFFFFFFFFFFFFFF0C#72, 0x00000000000000010D#72, 0x00000000000000010E#72].map
        fun w => (decodeCommand w).toOption) =
    [some (.setphy true), some (.setphy false), some (.setlanes 4#8), some (.enenc 1#64), some (.enenc 3#64),
      some (.enenc 0xFFFFFFFFFFFFFFFF#64), some (.disenc 1#64), some (.setkeysel 1#8)] := by decide

/-- A map and a number with no symmetry, so that no byte of them can be misplaced unseen. -/
theorem test_decode_asymmetric_operands :
    (decodeCommand 0x0123456789ABCDEF0C#72).toOption = some (.enenc 0x0123456789ABCDEF#64) ∧
    (decodeCommand 0x0123456789ABCDEF0D#72).toOption = some (.disenc 0x0123456789ABCDEF#64) ∧
    (decodeCommand 0x00000000000000A507#72).toOption = some (.setlanes 0xA5#8) ∧
    (decodeCommand 0x00000000000000A50E#72).toOption = some (.setkeysel 0xA5#8) := by decide

theorem test_illegal_words_decode_to_nothing :
    ([0x000000000000000000#72, 0x000000000000000012#72, 0x0000000000000000FF#72, 0x000000000000000102#72,
      0x000000000000000206#72, 0x000000000000010007#72].map fun w => (decodeCommand w).toOption) =
    [none, none, none, none, none, none] := by decide

theorem test_decode_tx_events :
    ([0x0002#16, 0x0004#16, 0x0008#16, 0x0010#16, 0x0020#16, 0x0040#16, 0x0080#16, 0x0100#16, 0x0200#16].map
        fun w => (decodeEvent .tx w).toOption) =
    [some .txAuthenticate, some .txCheck, some .txDisable, some .txEnable, some .txLinkdown, some .txPhydown,
      some .txPhyup, some .txPoll, some .txTimeout] := by decide

theorem test_decode_rx_events :
    ([0x0002#16, 0x0004#16, 0x0008#16, 0x0010#16, 0x0020#16, 0x0040#16, 0x0080#16, 0x0100#16].map
        fun w => (decodeEvent .rx w).toOption) =
    [some .rxAuthenticate, some .rxCheck, some .rxDisable, some .rxEnable, some .rxPhydown, some .rxPhyup,
      some .rxPoll, some .rxUpdateRi] := by decide

/-- 30_encoding.md R95: bits 0 and 10 of a Tx, bit 9 of an Rx. -/
theorem test_reserved_event_bits_refused :
    (decodeEvent .tx 0x0001#16).toOption = none ∧ (decodeEvent .tx 0x0402#16).toOption = none ∧
      (decodeEvent .rx 0x0200#16).toOption = none ∧ (decodeEvent .rx 0x0000#16).toOption = none := by decide

/-- 95_test_vectors.md V31: a snapshot of `POLL` and `TIMEOUT` gives `POLL` first and `TIMEOUT` next. -/
theorem test_event_word_remainder :
    (decodeEvent .tx 0x0300#16).toOption = some .txPoll ∧
      (FetchWord.events 0x0300#16).remainder .tx = [.events 0x0200#16] ∧
      (FetchWord.events 0x0200#16).remainder .tx = [] := by decide

theorem test_table_words :
    decodeTableWord 72 0x000000000000000407 = some (.setlanes 4#8) ∧ decodeTableWord 8 0x0C = some (.enenc 0#64) ∧
      decodeTableWord 16 0x0200 = some .txTimeout ∧ decodeTableWord 72 0x12 = none := by decide

/-! ## Data fields: 95_test_vectors.md V10 to V14 -/

/-- V10. -/
theorem test_ksv_validity :
    ([0x0000000000#64, 0x00000FFFFF#64, 0x00001FFFFF#64, 0xFFFFF00000#64, 0xFFFFFFFFFF#64, 0xB70361F714#64,
      0xCD1AF21E51#64, 0x0F0F0F0F0F#64, 0xFFFFFF00000FFFFF#64, 0xFFFFFFFFFFFF#64].map (isValidKsv statedLiterals)) =
    [false, true, false, true, false, true, true, true, true, false] := by decide

/-- V11. -/
theorem test_little_endian_packing :
    leBytes 5 0xB70361F714#64 = bksv ∧ leBytes 5 0xCD1AF21E51#64 = aksv ∧
      leBytes 8 0x0351F7175406A74D#64 = anBytesV11 ∧ leBytes 2 0xBEEF#16 = [0xEF#8, 0xBE#8] := by decide

/-- V11. -/
theorem test_little_endian_unpacking :
    unLE 64 bksv = 0xB70361F714#64 ∧ unLE 64 aksv = 0xCD1AF21E51#64 ∧ unLE 64 anBytesV11 = 0x0351F7175406A74D#64 ∧
      unLE 16 [0xEF#8, 0xBE#8] = 0xBEEF#16 := by decide

/-- V12. -/
theorem test_b_registers :
    ([(0x0351F7175406A74D#64, false), (0x0351F7175406A74D#64, true), (0x0123456789ABCDEF#64, true),
      (0xFFFFFFFFFFFFFFFF#64, true), (0x0000000000000001#64, false)].map
        fun p => (bRegX p.1, bRegY p.1, bRegZ p.1 p.2)) =
    [(0x0406A74D#32, 0x051F7175#32, 0x003#32), (0x0406A74D#32, 0x051F7175#32, 0x103#32),
      (0x09ABCDEF#32, 0x02345678#32, 0x101#32), (0x0FFFFFFF#32, 0x0FFFFFFF#32, 0x1FF#32),
      (0x00000001#32, 0x00000000#32, 0x000#32)] := by decide

/-- V13. -/
theorem test_repeater_info :
    ([0x0000#16, 0x0101#16, 0x0080#16, 0x0800#16, 0x087F#16, 0x007F#16, 0xF000#16].map
        fun i => (deviceCount i, repeaterOverflow i)) =
    [(0, false), (1, false), (0, true), (0, true), (127, true), (127, false), (0, false)] := by decide

/-- V14, case A: the message and its digest. -/
theorem test_sha1_case_a :
    ksvListMessage statedLiterals bksv 0x0101#16 0#64 =
      bksv ++ [0x01#8, 0x01#8, 0x00#8, 0x00#8, 0x00#8, 0x00#8, 0x00#8, 0x00#8, 0x00#8, 0x00#8] ∧
    sha1 (ksvListMessage statedLiterals bksv 0x0101#16 0#64) =
      [0x25A164C7#32, 0xC038B7CF#32, 0x45836604#32, 0x63DEFF17#32, 0x2C48E5DD#32] := by decide +kernel

/-- V14, case C: two devices. -/
theorem test_sha1_case_c :
    sha1 (ksvListMessage statedLiterals (bksv ++ aksv) 0x0102#16 0x0123456789ABCDEF#64) =
      [0x0AA3CAE4#32, 0xF89A9C25#32, 0x7608C178#32, 0x5D008984#32, 0x549C783A#32] := by decide +kernel

/-- V30. -/
theorem test_posts :
    [postedTo 0x0010#16 (.tx .disable), postedTo 0x0008#16 (.tx .enable), postedTo 0x0080#16 (.tx .phyDown),
      postedTo 0x0040#16 (.tx .phyUp), postedTo 0x0004#16 (.tx .linkDown), postedTo 0x0200#16 (.tx .timeout),
      postedTo 0x0040#16 (.rx .phyDown)] =
    [0x0008#16, 0x0018#16, 0x0040#16, 0x00C0#16, 0x0024#16, 0x0200#16, 0x0020#16] := by decide

/-! ## One instruction, one step: 95_test_vectors.md V31 to V80 and P1 to P8 -/

/-- V80: `CFGINIT` before any other command. -/
theorem test_cfginit_from_reset :
    (after (exec .cfginit (State.powerOn txParams))).map (fun s => (s.ready, s.result, s.requests)) =
      some (true, some .success,
        [.timerStop, .cipherDisableEncryption 0xFFFFFFFFFFFFFFFF#64, .cipherDisable, .portDisable]) := by decide

/-- 41_event_queue.md R155, 70_reset_and_hazards.md R352: a callback of an earlier life posts inside a second `CFGINIT`,
whose reset of `PendingEvents` was before it; then it is forgotten. -/
theorem test_cfginit_interrupted :
    (after (exec .cfginit { txIs .validateRx with
        callbacks := txCallbacks, timer := some 100, pendingEvents := 0x0002#16
        arrivals := [[.cipherRiUpdate, .timerExpiry], [.portReauth]] })).map
      (fun s => (s.pendingEvents, s.timer, s.callbacks, s.arrivals)) =
      some (0x0204#16, none, .none, [[.portReauth]]) := by decide

/-- V90: a second `CFGINIT`, from `AUTHENTICATED` with a map, clears the map too. -/
theorem test_cfginit_clears_the_map :
    (after (exec .cfginit { txIs .authenticated with
        tx := { (txIs .authenticated).tx with encryptionMap := 1#64, previousState := 7#4 } })).map
      (fun s => (s.tx.currentState, s.tx.previousState, s.tx.encryptionMap)) = some (0#4, 0#4, 0#64) := by decide

/-- V80: before `CFGINIT` `ENABLE` fails and does nothing. -/
theorem test_enable_not_ready :
    after (exec .enable (State.powerOn txParams)) =
      some { State.powerOn txParams with result := some .failure } := by decide

/-- P1 step 3. -/
theorem test_enable_tx :
    (after (exec .enable (txIs .disabled))).map (fun s => (txLook s, s.callbacks.riUpdate, s.requests.length)) =
      some ((10#4, 0#4, 0#16, .zero), some (.tx .check), 10) := by decide

/-- V31: the snapshot `0x0018` of an authenticated Tx ends in `UNAUTHENTICATED` by way of `DISABLED`. -/
theorem test_reset_tx :
    (after (exec .reset { txIs .authenticated with
        tx := { (txIs .authenticated).tx with stats := { TxStats.zero with authPassed := 1 }, encryptionMap := 1#64 }
        })).map (fun s => (txLook s, s.tx.encryptionMap, s.phyUp)) =
      some ((10#4, 0#4, 0#16, .zero), 1#64, true) := by decide

/-- V40 row `DISABLE` in `AUTHENTICATED`, by the command. -/
theorem test_disable_tx :
    (after (exec .disable { txIs .authenticated with
        tx := { (txIs .authenticated).tx with
          stats := { TxStats.zero with authPassed := 1 }, encryptionMap := 1#64, isRepeater := true } })).map
      (fun s => (txLook s, s.tx.encryptionMap, s.tx.isRepeater)) =
      some ((0#4, 5#4, 0#16, .zero), 1#64, false) := by decide

/-- V34: with a map `SETPHY up` leaves `AUTHENTICATE` for the next drain. -/
theorem test_setphy_up_posts_for_next_drain :
    (after (exec (.setphy true) { txIs .phyDown with
        tx := { (txIs .phyDown).tx with encryptionMap := 1#64 }, phyUp := false })).map
      (fun s => (txLook s, s.phyUp)) = some ((10#4, 11#4, 0x0002#16, .zero), true) := by decide

/-- P7 step 1. -/
theorem test_setphy_down :
    (after (exec (.setphy false) (txIs .authenticated))).map (fun s => (txLook s, s.phyUp, s.requests)) =
      some ((11#4, 5#4, 0#16, .zero), false,
        [.cipherDisableEncryption 0xFFFFFFFFFFFFFFFF#64, .cipherDisable]) := by decide

/-- 40_commands.md R127. -/
theorem test_setlanes :
    (after (exec (.setlanes 4#8) (txIs .disabled))).map State.requests = some [.cipherSetLaneCount 4#8] := by decide

/-- 40_commands.md R134. -/
theorem test_setkeysel :
    (after (exec (.setkeysel 1#8) (txIs .disabled))).map State.requests = some [.cipherSetKeySelect 1#8] := by decide

/-- V80. -/
theorem test_isinprog :
    (after (exec .isinprog (txIs .validateRx))).map State.result = some (some (.flag true)) ∧
      (after (exec .isinprog (txIs .authenticated))).map State.result = some (some (.flag false)) := by decide

/-- V80. -/
theorem test_isauth :
    (after (exec .isauth (txIs .authenticated))).map State.result = some (some (.flag true)) ∧
      (after (exec .isauth (rxIs .linkIntegrityFailed))).map State.result = some (some (.flag false)) := by decide

/-- V80: `ENENC` then `GETENC` on a Tx; 40_commands.md R131 on an Rx. -/
theorem test_getenc :
    (after (exec .getenc { txIs .unauthenticated with
        tx := { (txIs .unauthenticated).tx with encryptionMap := 5#64 } })).map State.result = some (some (.map 5#64)) ∧
    (after (exec .getenc (rxIs .authenticated { Answers.none with encryption := [9#64] }))).map
        (fun s => (s.result, s.requests)) = some (some (.map 9#64), [.cipherGetEncryption]) := by decide

/-- V80: no cipher request outside `AUTHENTICATED`. -/
theorem test_enenc_unauthenticated :
    (after (exec (.enenc 5#64) (txIs .unauthenticated))).map (fun s => (s.tx.encryptionMap, s.requests)) =
      some (5#64, []) := by decide

/-- 43_tx_procedures.md R221 with the whole new map. -/
theorem test_enenc_authenticated :
    (after (exec (.enenc 4#64) { txIs .authenticated with
        tx := { (txIs .authenticated).tx with encryptionMap := 1#64 } })).map
      (fun s => (s.tx.encryptionMap, s.requests)) =
      some (5#64, [.timerBusyDelay 5, .cipherEnableEncryption 5#64, .timerBusyDelay 5]) := by decide

/-- V80. -/
theorem test_disenc :
    (after (exec (.disenc 1#64) { txIs .authenticated with
        tx := { (txIs .authenticated).tx with encryptionMap := 3#64 } })).map
      (fun s => (s.tx.encryptionMap, s.requests)) = some (2#64, [.cipherDisableEncryption 1#64]) ∧
    (after (exec (.disenc 1#64) (rxIs .authenticated))).map State.result = some (some .failure) := by decide

/-- P1 step 7; V80 for an Rx. -/
theorem test_timeout :
    (after (exec .timeout (txIs .validateRx))).map State.pendingEvents = some 0x0200#16 ∧
      (after (exec .timeout (rxIs .authenticated))).map (fun s => (s.pendingEvents, s.result)) =
        some (0#16, some .success) := by decide

/-- V80. -/
theorem test_getver :
    (after (exec .getver (txIs .disabled))).map State.result = some (some (.version 0x00010203#32)) := by decide

/-- 40_commands.md R136: `INFO` keeps every register. -/
theorem test_info_keeps_registers :
    (after (exec .info (txIs .waitForReady))).map (fun s => (s.tx, s.pendingEvents, s.requests)) =
      some ((txIs .waitForReady).tx, 0#16, []) := by decide

/-- The collaborator's answers of P1 step 4. -/
def p1Answers : Answers :=
  { Answers.none with
    capable := [true], reads := [whole bksv], revoked := [false], repeater := [false], complete := [true], mi := [0#64]
    writes := [8, 5], localKsv := [0xCD1AF21E51#64] }

/-- P1 step 4: the whole exchange, by `AUTH`. -/
theorem test_auth_exchange :
    (after (exec .auth (txIs .unauthenticated p1Answers))).map (fun s => (txLook s, s.tx.an, s.requests.drop 6)) =
      some ((3#4, 2#4, 0#16, .zero), 0x0351F7175406A74D#64,
        [.portIsRepeater, .cipherDoRequest .rng, .cipherIsRequestComplete, .cipherGetMi, .portWrite 0x18#8 anBytesV11,
         .cipherGetLocalKsv, .portWrite 0x10#8 aksv, .cipherSetRemoteKsv 0xB70361F714#64,
         .cipherSetB 0x0406A74D#32 0x051F7175#32 0x003#32, .cipherDoRequest .block]) := by decide

/-- V50: a short `BKSV` read. -/
theorem test_txAuthenticate_short_bksv :
    (after (exec .txAuthenticate (txIs .unauthenticated
        { Answers.none with capable := [true], reads := [short 3] }))).map txLook =
      some (10#4, 2#4, 0#16, { TxStats.zero with readFailures := 1 }) := by decide

/-- V40: a receiver that is not capable. -/
theorem test_txAuthenticate_incapable :
    (after (exec .txAuthenticate (txIs .validateRx { Answers.none with capable := [false] }))).map
      (fun s => (txLook s, s.requests.headD .portEnable)) = some ((10#4, 1#4, 0#16, .zero), .timerStop) := by decide

/-- V33, V61 row 2: a match on the second try, against a fresh local `Ri`. -/
theorem test_txCheck_second_try :
    (after (exec .txCheck (txIs .authenticated { Answers.none with
        ri := [0x1111#16, 0x2222#16], reads := [whole [0x22#8, 0x22#8], whole [0x22#8, 0x22#8]] }))).map txLook =
      some (5#4, 6#4, 0#16, { TxStats.zero with linkCheckPassed := 1 }) := by decide

/-- V61 row 3, then a receiver that is not capable. -/
theorem test_txCheck_three_mismatches :
    (after (exec .txCheck (txIs .authenticated { Answers.none with
        ri := [0x1111#16, 0x1111#16, 0x1111#16]
        reads := [whole [0x00#8, 0x00#8], whole [0x00#8, 0x00#8], whole [0x00#8, 0x00#8]]
        capable := [false] }))).map txLook =
      some (10#4, 1#4, 0#16, { TxStats.zero with linkCheckFailed := 1 }) := by decide

/-- V40: ignored in `DISABLED`. -/
theorem test_txDisable_in_disabled : after (exec .txDisable (txIs .disabled)) = some (txIs .disabled) := by decide

/-- V40: with the link down `ENABLE` goes to `PHYDOWN` and still runs the enable sequence. -/
theorem test_txEnable_link_down :
    (after (exec .txEnable { txIs .disabled with phyUp := false })).map (fun s => (txLook s, s.callbacks)) =
      some ((11#4, 0#4, 0#16, .zero),
        { linkFail := some (.tx .linkDown), riUpdate := some (.tx .check), portAuth := some (.tx .authenticate) }) := by
  decide

/-- V40: ignored in `COMPUTATIONS`, taken in `AUTHENTICATED`. -/
theorem test_txLinkdown :
    after (exec .txLinkdown (txIs .computations)) = some (txIs .computations) ∧
      (after (exec .txLinkdown (txIs .authenticated))).map txLook = some (10#4, 5#4, 0#16, .zero) := by decide

/-- V40: in `WAIT_FOR_READY` the timer is stopped; in `DISABLED` only `PhyUp` changes. -/
theorem test_txPhydown :
    (after (exec .txPhydown (txIs .waitForReady))).map (fun s => (txLook s, s.phyUp, s.requests.headD .portEnable)) =
      some ((11#4, 8#4, 0#16, .zero), false, .timerStop) ∧
    after (exec .txPhydown (txIs .disabled)) = some { txIs .disabled with phyUp := false } := by decide

/-- V40: with map 0 nothing is posted; in `AUTHENTICATED` only `PhyUp` changes. -/
theorem test_txPhyup :
    (after (exec .txPhyup { txIs .phyDown with phyUp := false })).map (fun s => (txLook s, s.phyUp)) =
      some ((10#4, 11#4, 0#16, .zero), true) ∧
    after (exec .txPhyup { txIs .authenticated with phyUp := false }) = some (txIs .authenticated) := by decide

/-- V40: the computations end. -/
theorem test_txPoll_complete :
    (after (exec .txPoll (txIs .computations { Answers.none with complete := [true] }))).map
      (fun s => (txLook s, s.timer)) = some ((4#4, 3#4, 0#16, .zero), some 100) := by decide

/-- P3 steps 7 and 8: not ready, then a repeater without devices. -/
theorem test_txPoll_wait_for_ready :
    (after (exec .txPoll (txIs .waitForReady { Answers.none with repeaterInfo := [none] }))).map txLook =
      some (8#4, 0#4, 0#16, .zero) ∧
    (after (exec .txPoll (txIs .waitForReady { Answers.none with repeaterInfo := [some 0x0000#16] }))).map txLook =
      some (5#4, 8#4, 0#16, { TxStats.zero with authPassed := 1 }) := by decide

/-- P1 step 8: the first read matches; a repeater goes on to `WAIT_FOR_READY` (P3 step 6). -/
theorem test_txTimeout_match :
    (after (exec .txTimeout (txIs .validateRx { Answers.none with
        ro := [0xBEEF#16], reads := [whole [0xEF#8, 0xBE#8]] }))).map txLook =
      some (5#4, 7#4, 0#16, { TxStats.zero with authPassed := 1 }) ∧
    (after (exec .txTimeout { txIs .validateRx { Answers.none with
        ro := [0xBEEF#16], reads := [whole [0xEF#8, 0xBE#8]], writes := [1] } with
        tx := { (txIs .validateRx).tx with isRepeater := true } })).map (fun s => (txLook s, s.timer)) =
      some ((8#4, 7#4, 0#16, .zero), some 5000) := by decide

/-- V60 row 4: short, mismatch, short. -/
theorem test_txTimeout_exhaustion :
    (after (exec .txTimeout (txIs .validateRx { Answers.none with
        ro := [0x1234#16], reads := [short 1, whole [0x00#8, 0x00#8], short 0] }))).map txLook =
      some (10#4, 4#4, 0#16, { TxStats.zero with authFailed := 1, readFailures := 2 }) := by decide

/-- 95_test_vectors.md V14 case A as the port gives it. -/
def vPrimeA : List (List Byte) :=
  [[0xC7#8, 0x64#8, 0xA1#8, 0x25#8], [0xCF#8, 0xB7#8, 0x38#8, 0xC0#8], [0x04#8, 0x66#8, 0x83#8, 0x45#8],
   [0x17#8, 0xFF#8, 0xDE#8, 0x63#8], [0xDD#8, 0xE5#8, 0x48#8, 0x2C#8]]

/-- `bksv` in two reads of a chunk of 4. -/
def chunks : List (List Byte) := [[0x14#8, 0xF7#8, 0x61#8, 0x03#8], [0xB7#8]]

/-- A Tx in `READ_KSV_LIST` for one device, with these reads to come and as many `Mo`, each 0, as attempts can take. -/
def reading (reads : List ReadAnswer) : State :=
  { txIs .readKsvList { Answers.none with mo := [0#64, 0#64, 0#64], reads := reads } with
    tx := { (txIs .readKsvList).tx with repeaterInfo := 0x0101#16 } }

/-- V52 row 1: one device, the list in two reads of a chunk of 4, the digest of case A. -/
theorem test_ksv_list :
    (validateKsvList (reading ((chunks ++ vPrimeA).map whole))).toOption.map (fun r => (r.1, r.2.tx.stats)) =
      some (.authenticated, .zero) := by decide +kernel

/-- P5 step 4: `AKSV` and `AN` are read and loaded. -/
theorem test_rxAuthenticate :
    (after (exec .rxAuthenticate (rxIs .unauthenticated { Answers.none with
        reads := [whole aksv, whole anBytesV11], repeater := [false] }))).map (fun s => (rxLook s, s.requests)) =
      some ((2#3, 1#3, 0#16, 0),
        [.portRead 0x10#8 5, .portRead 0x18#8 8, .cipherSetRemoteKsv 0xCD1AF21E51#64, .portIsRepeater,
         .cipherSetB 0x0406A74D#32 0x051F7175#32 0x003#32, .cipherDoRequest .block]) := by decide

/-- V62: link down under `DP`, and up again (P6 steps 7 and 10). -/
theorem test_rxCheck :
    (after (exec .rxCheck (rxIs .authenticated { Answers.none with
        linkUp := [false], reads := [whole [0x01#8]], writes := [1] } .dp))).map (fun s => (rxLook s, s.requests)) =
      some ((4#3, 3#3, 0#16, 0), [.cipherIsLinkUp, .portRead 0x41#8 1, .portWrite 0x41#8 [0x05#8]]) ∧
    (after (exec .rxCheck (rxIs .linkIntegrityFailed { Answers.none with linkUp := [true] } .dp))).map
      (fun s => (rxLook s, s.requests)) = some ((3#3, 4#3, 0#16, 0), [.cipherIsLinkUp]) := by decide

/-- 44_rx_events.md R253, R260. -/
theorem test_rxDisable :
    (after (exec .rxDisable { rxIs .authenticated with
        rx := { (rxIs .authenticated).rx with riUpdates := 7 } })).map (fun s => (rxLook s, s.requests)) =
      some ((0#3, 3#3, 0#16, 0), [.portDisable, .cipherDisable]) := by decide

/-- P5 step 2: the local KSV is asked twice when the first answer is zero. -/
theorem test_rxEnable :
    (after (exec .rxEnable (rxIs .disabled { Answers.none with
        localKsv := [0#64, 0xB70361F714#64], writes := [5] }))).map (fun s => (rxLook s, s.requests.drop 4)) =
      some ((1#3, 0#3, 0#16, 0),
        [.cipherEnable, .cipherGetLocalKsv, .cipherGetLocalKsv, .portWrite 0x00#8 bksv,
         .portSetAuthCallback (.rx .authenticate), .portEnable]) := by decide

/-- 44_rx_events.md R255. -/
theorem test_rxPhydown :
    (after (exec .rxPhydown (rxIs .computations))).map (fun s => (rxLook s, s.phyUp, s.requests)) =
      some ((5#3, 2#3, 0#16, 0), false, []) := by decide

/-- 44_rx_events.md R256. -/
theorem test_rxPhyup :
    (after (exec .rxPhyup { rxIs .phyDown with phyUp := false })).map (fun s => (rxLook s, s.phyUp)) =
      some ((1#3, 5#3, 0#16, 0), true) := by decide

/-- V62: what each protocol publishes and arms. -/
theorem test_rxPoll :
    (after (exec .rxPoll (rxIs .computations { Answers.none with
        complete := [true], ro := [0x8001#16], writes := [2] } .dp))).map (fun s => (rxLook s, s.requests.drop 2)) =
      some ((3#3, 2#3, 0#16, 0), [.portWrite 0x08#8 [0x01#8, 0x80#8], .cipherSetLinkStateCheck true]) ∧
    (after (exec .rxPoll (rxIs .computations { Answers.none with
        complete := [true], ri := [0xA55A#16], writes := [2] }))).map (fun s => (rxLook s, s.requests.drop 2)) =
      some ((3#3, 2#3, 0#16, 0), [.portWrite 0x08#8 [0x5A#8, 0xA5#8], .cipherSetRiUpdate true]) := by decide

/-- V62: a short write is still counted; `DP` ignores the event. -/
theorem test_rxUpdateRi :
    (after (exec .rxUpdateRi (rxIs .authenticated { Answers.none with ri := [0x1357#16], writes := [0] }))).map
      (fun s => (rxLook s, s.requests)) =
      some ((3#3, 0#3, 0#16, 1), [.cipherGetRi, .portWrite 0x08#8 [0x57#8, 0x13#8]]) ∧
    after (exec .rxUpdateRi (rxIs .authenticated .none .dp)) = some (rxIs .authenticated .none .dp) := by decide

/-- An event row of the other direction is refused. -/
theorem test_event_of_other_direction_refused :
    exec .rxPoll (txIs .disabled) = .refused .eventOfOtherDirection ∧
      exec .txPoll (rxIs .disabled) = .refused .eventOfOtherDirection := ⟨rfl, rfl⟩

/-- P1 step 10 and step 11: an interrupt posts, the next `POLL` dispatches it. -/
theorem test_poll_after_interrupt :
    (after (exec .poll (State.takeInterrupt { txIs .authenticated { Answers.none with
        ri := [0x1234#16], reads := [whole [0x34#8, 0x12#8]] } with callbacks := txCallbacks }
        .cipherRiUpdate))).map txLook =
      some (5#4, 6#4, 0#16, { TxStats.zero with linkCheckPassed := 1 }) := by decide

/-- The step runs the word placed next (V20 `CFGINIT`), and fails an illegal one (V21). -/
theorem test_step_runs_placed_word :
    (after (step ((State.powerOn txParams).withFetchWord 72 0x01))).map State.ready = some true ∧
      (after (step ((State.powerOn txParams).withFetchWord 72 0x12))).map State.result = some (some .failure) := by
  decide

/-! ## States that meet the hypotheses of the statements

Each theorem below shows, for the obligation its name ends in, a concrete state and operands that meet all the hypotheses
of a clause together. A hypothesis `t = { s with … }` names a state and is met by it. -/

theorem test_meets_EncodedInstructionsDecodeBack :
    Instr.wf .tx .txTimeout = true ∧ Instr.wf .rx .rxUpdateRi = true ∧ Instr.wf .rx (.enenc allStreams) = true := by
  decide

theorem test_meets_LegalWordsHaveOneEncoding :
    (decodeCommand 0x00000000000000FF07#72).toOption = some (.setlanes 0xFF#8) ∧
      (decodeEvent .tx 0x03FE#16).toOption = some .txAuthenticate ∧
      (decodeEvent .rx 0x0180#16).toOption = some .rxPoll := by decide

/-- Each kind of illegal word at its first and last opcode or lowest bit, and the legal words next to them. -/
theorem test_meets_IllegalCommandWordsFail :
    ((0x00#72).extractLsb' 0 8).toNat = 0 ∧ 0x12 ≤ ((0x12#72).extractLsb' 0 8).toNat ∧
      0x12 ≤ ((0xFF#72).extractLsb' 0 8).toNat ∧ ((0x11#72).extractLsb' 0 8).toNat = 0x11 ∧
      (0x101#72).extractLsb' 8 64 ≠ 0#64 ∧ (0x206#72).extractLsb' 9 63 ≠ 0#63 ∧ (0x106#72).extractLsb' 9 63 = 0#63 ∧
      (0x10007#72).extractLsb' 16 56 ≠ 0#56 ∧ (0x1000E#72).extractLsb' 16 56 ≠ 0#56 ∧
      (0xFF07#72).extractLsb' 16 56 = 0#56 ∧
      ((txIs .disabled).withFetchWord 72 0x12).inputs = .fetch (.command 0x12#72) :: [] := by decide

theorem test_meets_StepRunsDecodedInstruction :
    ((txIs .disabled).withFetchWord 16 0x0300).inputs = .fetch (.events 0x0300#16) :: [] ∧
      (decode .tx (.events 0x0300#16)).toOption = some .txPoll ∧ Instr.wf .tx .txPoll = true ∧
      ({ txIs .disabled with inputs := [.interrupt .timerExpiry] } : State).inputs = .interrupt .timerExpiry :: [] ∧
      (txIs .disabled).inputs = [] := by decide

/-- A Tx in `VALIDATE_RX` with its callbacks and its timer armed. -/
def txArmed : State := { txIs .validateRx with callbacks := txCallbacks, timer := some 100 }

/-- An Rx with its callbacks. -/
def rxArmed : State := { rxIs .authenticated with callbacks := rxCallbacks }

/-- Each source on its own: the others registered or armed or not; an expiry on an enabled Tx whose timer is not armed;
an armed timer on an Rx and on a Tx that accepts no command. -/
theorem test_meets_InterruptSourcesOnlyPost :
    (txArmed.params.direction = .tx ∧ txArmed.callbacks = txCallbacks ∧ txArmed.accepts ∧ txArmed.timer ≠ none) ∧
      (rxArmed.params.direction = .rx ∧ rxArmed.callbacks = rxCallbacks) ∧
      ({ txArmed with callbacks := { txCallbacks with portAuth := none } } : State).callbacks.portAuth = none ∧
      ({ txArmed with callbacks := { txCallbacks with riUpdate := none } } : State).callbacks.riUpdate = none ∧
      ({ txArmed with callbacks := { txCallbacks with linkFail := none } } : State).callbacks.linkFail = none ∧
      (({ txArmed with timer := none } : State).timer = none ∧
        ({ txArmed with timer := none } : State).callbacks = txCallbacks) ∧
      (({ rxArmed with timer := some 100 } : State).params.direction = .rx ∧
        ¬ ({ txArmed with ready := false } : State).accepts) ∧
      txArmed.callbacksSound ∧ rxArmed.callbacksSound := by
  refine ⟨⟨rfl, rfl, ⟨rfl, rfl⟩, by decide⟩, ⟨rfl, rfl⟩, rfl, rfl, rfl, ⟨rfl, rfl⟩, ⟨rfl, fun h => absurd h.1 (by decide)⟩,
    ?_, ?_⟩ <;>
    refine ⟨fun e h => ?_, fun e h => ?_, fun e h => ?_⟩ <;> cases h <;> rfl

/-- 20_memory.md R70 with only `TimerStop` missing: the arming that is left is replaced (entry 39). -/
theorem test_start_of_an_armed_timer :
    let s := { txArmed with params := { txParams with hooks := { txParams.hooks with timerStop := false } } }
    (s.stopTimer.startTimer 5000).timer = some 5000 ∧
      ((s.stopTimer.startTimer 5000).takeInterrupt .timerExpiry).timer = none := by decide

/-- The lowest and the highest reserved bit of each direction. -/
theorem test_meets_ReservedEventBitsFault :
    (∀ p ∈ [0x0001#16, 0x0400#16, 0x8000#16], ({ txIs .disabled with pendingEvents := p } : State).accepts ∧
      ({ txIs .disabled with pendingEvents := p } : State).undisturbed ∧ p &&& 0xFC01#16 ≠ 0#16) ∧
    (∀ p ∈ [0x0001#16, 0x0200#16, 0x8000#16], ({ rxIs .disabled with pendingEvents := p } : State).accepts ∧
      ({ rxIs .disabled with pendingEvents := p } : State).undisturbed ∧ p &&& 0xFE01#16 ≠ 0#16) ∧
    ({ txIs .disabled with inputs := [.fetch (.events 0x0400#16)] } : State).inputs =
      .fetch (.events 0x0400#16) :: [] := by
  refine ⟨fun p h => ⟨⟨rfl, rfl⟩, rfl, ?_⟩, fun p h => ⟨⟨rfl, rfl⟩, rfl, ?_⟩, rfl⟩ <;>
    simp only [List.mem_cons, List.not_mem_nil, or_false] at h <;> rcases h with rfl | rfl | rfl <;> decide

/-- Every event pending at once, in each direction. -/
theorem test_meets_DrainDispatchesInAscendingOrder :
    (({ txIs .disabled with pendingEvents := 0x03FE#16 } : State).undisturbed ∧
      ({ txIs .disabled with pendingEvents := 0x03FE#16 } : State).pendingLegal) ∧
    (({ rxIs .disabled with pendingEvents := 0x01FE#16 } : State).undisturbed ∧
      ({ rxIs .disabled with pendingEvents := 0x01FE#16 } : State).pendingLegal) := ⟨⟨rfl, rfl⟩, rfl, rfl⟩

/-- The events of the interrupts. -/
theorem test_meets_InterruptPostsCommuteWithDispatch :
    ∀ e ∈ [Event.tx .authenticate, .tx .check, .tx .linkDown, .tx .timeout, .rx .authenticate, .rx .check,
      .rx .updateRi], e.suppressed = 0#16 := by decide

/-- Also for every other statement about a command that the frame lets through. -/
theorem test_meets_LifeCycleCommandsPostThenDrain :
    ((txIs .authenticated).accepts ∧ (txIs .authenticated).params.direction = .tx) ∧
      ((rxIs .authenticated).accepts ∧ (rxIs .authenticated).params.direction = .rx) :=
  ⟨⟨⟨rfl, rfl⟩, rfl⟩, ⟨rfl, rfl⟩, rfl⟩

/-- Answers of the enable sequence of an Rx. -/
def enableAnswers : Answers := { Answers.none with localKsv := [0xB70361F714#64], writes := [5] }

theorem test_meets_ResetIsDisableThenEnable :
    ¬ (State.powerOn txParams).accepts ∧ ((txIs .disabled).txIn .disabled ∧ (txIs .disabled).calm) ∧
      ((rxIs .disabled).rxIn .disabled ∧ (rxIs .disabled).calm) ∧
      ((txIs .waitForReady).txIn .waitForReady ∧ (txIs .waitForReady).calm ∧ (txIs .waitForReady).phyUp = true) ∧
      ((rxIs .computations enableAnswers).rxIn .computations ∧ (rxIs .computations enableAnswers).calm ∧
        (rxIs .computations enableAnswers).phyUp = true ∧
        (rxIs .computations enableAnswers).answers =
          { Answers.none with localKsv := 0xB70361F714#64 :: [], writes := 5 :: [] }) :=
  ⟨fun h => absurd h.1 (by decide), ⟨⟨rfl, rfl, rfl⟩, ⟨rfl, rfl⟩, rfl, rfl⟩, ⟨⟨rfl, rfl, rfl⟩, ⟨rfl, rfl⟩, rfl, rfl⟩,
    ⟨⟨rfl, rfl, rfl⟩, ⟨⟨rfl, rfl⟩, rfl, rfl⟩, rfl⟩, ⟨rfl, rfl, rfl⟩, ⟨⟨rfl, rfl⟩, rfl, rfl⟩, rfl, rfl⟩

/-- A direction that is absent; an interruption point that is due, one that is due and empty, and none. Also for the
absent-direction clauses of `ReadyRecordsInitialisation`. -/
theorem test_meets_CfginitResetsEveryRegister :
    Params.directionPresent { txParams with txPresent := false } = false ∧
      Params.directionPresent { rxParams .dp with rxPresent := false } = false ∧
      (txArmed.params.direction = .tx ∧ txArmed.params.txPresent = true ∧ txArmed.arrivals = []) ∧
      ({ txArmed with arrivals := [[.timerExpiry], []] } : State).arrivals = [.timerExpiry] :: [[]] ∧
      ({ rxArmed with arrivals := [[]] } : State).arrivals = [] :: [] ∧
      (rxArmed.params.direction = .rx ∧ rxArmed.params.rxPresent = true ∧ rxArmed.arrivals = []) := by decide

theorem test_meets_ReadyRecordsInitialisation :
    Params.directionPresent (State.powerOn txParams).params = true ∧ (State.powerOn txParams).ready = false ∧
      Instr.eventDirection .getver = none ∧ Instr.getver ≠ .cfginit ∧
      (after (step ((txIs .disabled).withFetchWord 72 0x05))).isSome = true ∧ (txIs .disabled).ready = true := by decide

/-- Also for `RxStaysWithinItsInterfaces`. -/
theorem test_meets_StepKeepsParameters :
    (after (step ((txIs .authenticated).withFetchWord 72 0x01))).isSome = true ∧
      (after (step ((rxIs .disabled enableAnswers).withFetchWord 72 0x04))).isSome = true := by decide

theorem test_meets_EncryptionMapHasTwoWriters :
    (after (exec .txLinkdown (txIs .authenticated))).isSome = true ∧ (∀ m, Instr.txLinkdown ≠ .enenc m) ∧
      (∀ m, Instr.txLinkdown ≠ .disenc m) ∧ Instr.txLinkdown ≠ .cfginit :=
  ⟨by decide, fun _ => nofun, fun _ => nofun, nofun⟩

theorem test_meets_CfginitLeavesNoCallback :
    Params.directionPresent txArmed.params = true ∧ (after (exec .cfginit txArmed)).isSome = true := by decide

/-- Also for `EnencAddsToTheMap`, `DisencRemovesFromTheMap`, `GetencAndGetverAnswer` and
`IsinprogAndIsauthReadTheState`, which a command not let through fails. -/
theorem test_meets_SetlanesAndSetkeyselAskTheCipher :
    (txIs .disabled).accepts ∧ ¬ (State.powerOn txParams).accepts ∧ ¬ (State.powerOn (rxParams .dp)).accepts :=
  ⟨⟨rfl, rfl⟩, fun h => absurd h.1 (by decide), fun h => absurd h.1 (by decide)⟩

/-- At the first and the last encoding of each machine; and every resting state of an attempt. -/
theorem test_meets_IsinprogAndIsauthReadTheState :
    ((txIs .disabled).accepts ∧ (txIs .disabled).tx.currentState = TxState.disabled.code) ∧
      ((txIs .phyDown).accepts ∧ (txIs .phyDown).tx.currentState = TxState.phyDown.code) ∧
      ((rxIs .phyDown).accepts ∧ (rxIs .phyDown).rx.currentState = RxState.phyDown.code) ∧
      (∀ st ∈ [TxState.computations, .validateRx, .waitForReady], st.resting = true ∧ st.inProgress = true) :=
  ⟨⟨⟨rfl, rfl⟩, rfl⟩, ⟨⟨rfl, rfl⟩, rfl⟩, ⟨⟨rfl, rfl⟩, rfl⟩, by decide⟩

theorem test_meets_GetencAndGetverAnswer :
    (rxIs .authenticated { Answers.none with encryption := [3#64] }).accepts ∧
      (rxIs .authenticated { Answers.none with encryption := [3#64] }).answers =
        { Answers.none with encryption := 3#64 :: [] } ∧
      (rxIs .authenticated).accepts ∧ (rxIs .authenticated).answers.encryption = [] :=
  ⟨⟨rfl, rfl⟩, rfl, ⟨rfl, rfl⟩, rfl⟩

/-- Also for `InfoAnswersText`. -/
theorem test_meets_TimeoutOnlyPosts :
    txArmed.accepts ∧ txArmed.params.direction = .tx ∧ txArmed.timer ≠ none ∧
      ({ txArmed with arrivals := [[.timerExpiry]] } : State).arrivals = [.timerExpiry] :: [] :=
  ⟨⟨rfl, rfl⟩, rfl, by decide, rfl⟩

theorem test_meets_EnencAddsToTheMap :
    ((txIs .validateRx).accepts ∧ (txIs .validateRx).params.direction = .tx ∧
      (txIs .validateRx).tx.currentState = TxState.validateRx.code ∧ TxState.validateRx ≠ .authenticated) ∧
      ((txIs .authenticated).accepts ∧ (txIs .authenticated).tx.currentState = TxState.authenticated.code ∧
        (txIs .authenticated).delaysReturn) :=
  ⟨⟨⟨rfl, rfl⟩, rfl, rfl, by decide⟩, ⟨rfl, rfl⟩, rfl, nofun⟩

theorem test_meets_DisencRemovesFromTheMap :
    (txIs .phyDown).accepts ∧ (txIs .phyDown).tx.encryptionMap = 0#64 ∧ (rxIs .phyDown).accepts :=
  ⟨⟨rfl, rfl⟩, rfl, rfl, rfl⟩

/-- Every state that takes the event; a cipher that is late twice. -/
theorem test_meets_TxAuthenticateStartsComputations :
    ∀ st ∈ [TxState.unauthenticated, .computations, .validateRx, .waitForReady, .authenticated],
      let s := txIs st { p1Answers with complete := [false, false, true] }
      s.txIn st ∧ bksv.length = s.params.literals.ksvBytes ∧ isValidKsv s.params.literals (unLE 64 bksv) = true ∧
        s.calm ∧ s.answers = exchangeAnswers s.params bksv 0xCD1AF21E51#64 0#64 false 2 .none := by
  intro st h
  refine ⟨⟨rfl, rfl, rfl⟩, rfl, ?_, ⟨⟨rfl, rfl⟩, rfl, rfl⟩, rfl⟩
  show isValidKsv statedLiterals (unLE 64 bksv) = true
  decide

/-- Two failed tries, one short and one unequal, then the match. -/
theorem test_meets_TxCheckMatchKeepsAuthenticated :
    let fs : List (Half × ReadAnswer) := [(0x1111#16, short 1), (0x1111#16, whole [0x12#8, 0x34#8])]
    let r := whole [0x34#8, 0x12#8]
    let s := txIs .authenticated { Answers.none with
      ri := fs.map Prod.fst ++ 0x1234#16 :: [], reads := fs.map Prod.snd ++ r :: [] }
    s.txIn .authenticated ∧ fs.length < s.params.literals.nRetry ∧ (∀ f ∈ fs, tryFails 2 f.2 f.1) ∧
      tryMatches 2 r 0x1234#16 ∧ s.delaysReturn ∧ s.params.literals.riRoBytes = 2 ∧
      ({ s with pendingEvents := 0x0004#16 } : State).accepts ∧
      ({ s with pendingEvents := 0x0004#16 } : State).undisturbed := by
  refine ⟨⟨rfl, rfl, rfl⟩, by decide, ?_, ⟨rfl, rfl, by decide⟩, nofun, rfl, ⟨rfl, rfl⟩, rfl⟩
  simp only [List.mem_cons, List.not_mem_nil, or_false]
  rintro f (rfl | rfl)
  · exact .inl (by decide)
  · exact .inr ⟨rfl, rfl, by decide⟩

/-- One try short by one byte, one answered with an error, one unequal in one bit; then a receiver that is not capable,
and one with which the exchange goes through; the `POLL` of the second asks the cipher again. -/
theorem test_meets_TxCheckMismatchReauthenticates :
    let fs : List (Half × ReadAnswer) :=
      [(0x1111#16, short 1), (0x1111#16, short (-1)), (0x1111#16, whole [0x11#8, 0x10#8])]
    let s := fun a : Answers => { txIs .authenticated { a with
      ri := fs.map Prod.fst ++ a.ri, reads := fs.map Prod.snd ++ a.reads } with pendingEvents := 0x0004#16 }
    let good := exchangeAnswers txParams bksv 0xCD1AF21E51#64 0#64 true 0 { Answers.none with complete := [false] }
    (∀ a : Answers, (s a).txIn .authenticated ∧ (s a).accepts ∧ (s a).undisturbed ∧
      (s a).pendingEvents = 0x0004#16 ∧ fs.length = (s a).params.literals.nRetry ∧
      (s a).params.literals.riRoBytes = 2) ∧
    (∀ f ∈ fs, tryFails 2 f.2 f.1) ∧
    (after (exec .txCheck (s { Answers.none with capable := [false] }))).isSome = true ∧
    (bksv.length = 5 ∧ isValidKsv statedLiterals (unLE 64 bksv) = true ∧
      (after (exec .poll (s good))).map txLook =
        some (3#4, 2#4, 0#16, { TxStats.zero with linkCheckFailed := 1, readFailures := 2 })) := by
  refine ⟨fun _ => ⟨⟨rfl, rfl, rfl⟩, ⟨rfl, rfl⟩, rfl, rfl, rfl, rfl⟩, ?_, by decide, rfl, by decide, by decide +kernel⟩
  simp only [List.mem_cons, List.not_mem_nil, or_false]
  rintro f (rfl | rfl | rfl)
  · exact .inl (by decide)
  · exact .inl (by decide)
  · exact .inr ⟨rfl, rfl, by decide⟩

/-- Also for `DisableTwiceThenPollClearsOnce`. -/
theorem test_meets_TxDisableEntersDisabled :
    (txIs .validateRx).txIn .validateRx ∧ TxState.validateRx ≠ .disabled ∧ TxState.validateRx ≠ .testForRepeater ∧
      (txIs .validateRx).calm ∧ (rxIs .computations).rxIn .computations ∧ (rxIs .computations).calm :=
  ⟨⟨rfl, rfl, rfl⟩, by decide, by decide, ⟨⟨rfl, rfl⟩, rfl, rfl⟩, ⟨rfl, rfl, rfl⟩, ⟨⟨rfl, rfl⟩, rfl, rfl⟩⟩

/-- With the link up and with it down. -/
theorem test_meets_TxEnableLeavesDisabled :
    (txIs .disabled).txIn .disabled ∧ (txIs .disabled).calm ∧ (txIs .disabled).phyUp = true ∧
      ({ txIs .disabled with phyUp := false } : State).txIn .disabled ∧
      ({ txIs .disabled with phyUp := false } : State).calm :=
  ⟨⟨rfl, rfl, rfl⟩, ⟨⟨rfl, rfl⟩, rfl, rfl⟩, rfl, ⟨rfl, rfl, rfl⟩, ⟨⟨rfl, rfl⟩, rfl, rfl⟩⟩

theorem test_meets_TxLinkdownEndsUnauthenticated :
    let s : State := { txIs .authenticated with pendingEvents := 0x0020#16 }
    s.txIn .authenticated ∧ s.accepts ∧ s.undisturbed ∧ s.pendingEvents = 0x0020#16 :=
  ⟨⟨rfl, rfl, rfl⟩, ⟨rfl, rfl⟩, rfl, rfl⟩

theorem test_meets_TxPhydownEntersPhydown :
    (txIs .waitForReady).txIn .waitForReady ∧ TxState.waitForReady ≠ .disabled ∧ TxState.waitForReady ≠ .phyDown ∧
      TxState.waitForReady ≠ .testForRepeater ∧ (txIs .waitForReady).calm :=
  ⟨⟨rfl, rfl, rfl⟩, by decide, by decide, by decide, ⟨⟨rfl, rfl⟩, rfl, rfl⟩⟩

theorem test_meets_TxPhyupLeavesPhydown :
    (txIs .phyDown).txIn .phyDown ∧ (txIs .phyDown).calm := ⟨⟨rfl, rfl, rfl⟩, ⟨rfl, rfl⟩, rfl, rfl⟩

/-- Complete and not complete. -/
theorem test_meets_TxPollAsksForComputations :
    ∀ done : Bool, let s := txIs .computations { Answers.none with complete := [done] };
      s.txIn .computations ∧ s.calm ∧ s.answers = { Answers.none with complete := done :: [] } :=
  fun _ => ⟨⟨rfl, rfl, rfl⟩, ⟨⟨rfl, rfl⟩, rfl, rfl⟩, rfl⟩

/-- Without a repeater after two failed tries; with one, its `AINFO` write short and complete. -/
theorem test_meets_TxTimeoutMatchGoesOn :
    let fs := [short 0, whole [0x12#8, 0x34#8]]
    let r := whole [0x34#8, 0x12#8]
    let s := { txIs .validateRx { Answers.none with ro := [0x1234#16], reads := fs ++ [r] } with
      pendingEvents := 0x0200#16 }
    (s.txIn .validateRx ∧ fs.length < s.params.literals.nRetry ∧ (∀ f ∈ fs, tryFails 2 f 0x1234#16) ∧
      tryMatches 2 r 0x1234#16 ∧
      s.delaysReturn ∧ s.tx.isRepeater = false ∧ s.accepts ∧ s.undisturbed) ∧
    ∀ w : Int, w = 1 ∨ w = 0 →
      let u := { s with tx := { s.tx with isRepeater := true }, answers := { s.answers with writes := [w] } }
      u.txIn .validateRx ∧ u.tx.isRepeater = true ∧ w ≤ 1 ∧ u.delaysReturn ∧ u.accepts ∧ u.undisturbed ∧
        u.answers = { Answers.none with ro := 0x1234#16 :: [], reads := fs ++ r :: [], writes := w :: [] } := by
  refine ⟨⟨⟨rfl, rfl, rfl⟩, by decide, ?_, ⟨rfl, rfl, by decide⟩, fun _ h => absurd h List.not_mem_nil, rfl, ⟨rfl, rfl⟩, rfl⟩,
    fun w h => ⟨⟨rfl, rfl, rfl⟩, rfl, by omega, fun _ h => absurd h List.not_mem_nil, ⟨rfl, rfl⟩, rfl, rfl⟩⟩
  simp only [List.mem_cons, List.not_mem_nil, or_false]
  rintro f (rfl | rfl)
  · exact .inl (by decide)
  · exact .inr ⟨rfl, rfl, by decide⟩

theorem test_meets_TxTimeoutExhaustionEndsUnauthenticated :
    let fs := [short 1, whole [0x00#8, 0x00#8], short (-1)]
    let s := { txIs .validateRx { Answers.none with ro := [0x1234#16], reads := fs } with pendingEvents := 0x0200#16 }
    s.txIn .validateRx ∧ fs.length = s.params.literals.nRetry ∧ (∀ f ∈ fs, tryFails 2 f 0x1234#16) ∧ s.accepts ∧
      s.undisturbed ∧ s.answers = { Answers.none with ro := 0x1234#16 :: [], reads := fs ++ [] } := by
  refine ⟨⟨rfl, rfl, rfl⟩, rfl, ?_, ⟨rfl, rfl⟩, rfl, rfl⟩
  simp only [List.mem_cons, List.not_mem_nil, or_false]
  rintro f (rfl | rfl | rfl)
  · exact .inl (by decide)
  · exact .inr ⟨rfl, rfl, by decide⟩
  · exact .inl (by decide)

/-- The state an attempt leaves. -/
def attempted (s : State) : State := ((ksvListAttempt s).toOption.map Prod.snd).getD s

theorem attempted_eq {s : State} {b : Bool} (h : (ksvListAttempt s).toOption.map Prod.fst = some b) :
    ksvListAttempt s = .ok (b, attempted s) := by
  unfold attempted
  cases hr : ksvListAttempt s with
  | error f => rw [hr] at h; cases h
  | ok p => rw [hr] at h; cases h; rfl

/-- The state `TxWaitForReadyOutcomes` enters `READ_KSV_LIST` in, one device, with these reads to come. -/
def enteredWith (reads : List ReadAnswer) : State :=
  { reading reads with
    tx := { (txIs .waitForReady).tx with repeaterInfo := 0x0101#16 }, draws := 1
    requests := [.portGetRepeaterInfo] ++ stopRequests txParams }

/-- A list read short, and then a list whose words are right. -/
def onSecond : State := enteredWith (short 3 :: (chunks ++ vPrimeA).map whole)

/-- A short list, a short word, a list answered with an error. -/
def onNone : State := enteredWith ([short 0] ++ chunks.map whole ++ [short 3, short (-1)])

theorem test_list_on_second_attempt :
    (ksvListAttempt onSecond).toOption.map Prod.fst = some false ∧
      (ksvListAttempt (attempted onSecond)).toOption.map Prod.fst = some true ∧
      (attempted (attempted onSecond)).answers.delays = [] := by decide +kernel

theorem test_three_attempts_fail :
    (ksvListAttempt onNone).toOption.map Prod.fst = some false ∧
      (ksvListAttempt (attempted onNone)).toOption.map Prod.fst = some false ∧
      (ksvListAttempt (attempted (attempted onNone))).toOption.map Prod.fst = some false ∧
      (attempted (attempted (attempted onNone))).tx.stats = { TxStats.zero with readFailures := 3 } := by
  decide +kernel

/-- Also for the clauses of `ValidateKsvListEndsAtFirstSuccess` about attempts that fail. -/
theorem test_meets_attemptsFail :
    (∃ u v, attemptsFail 1 onSecond u ∧ ksvListAttempt u = .ok (true, v) ∧ v.delaysReturn) ∧
      ∃ u, attemptsFail txParams.literals.nRetry onNone u := by
  obtain ⟨h1, h2, h3⟩ := test_list_on_second_attempt
  obtain ⟨g1, g2, g3, -⟩ := test_three_attempts_fail
  refine ⟨⟨_, _, ⟨_, attempted_eq h1, rfl⟩, attempted_eq h2, fun b hb => ?_⟩,
    ⟨_, _, attempted_eq g1, _, attempted_eq g2, _, attempted_eq g3, rfl⟩⟩
  rw [h3] at hb
  exact absurd hb List.not_mem_nil

/-- The events that start the check, and an answer for each clause: an error, each overflow bit with and without a
count, no device, 1 and 127 devices, for which `test_meets_attemptsFail` has the attempts. Values with the same overflow
bits and count fall under the same one clause. -/
theorem test_meets_TxWaitForReadyOutcomes :
    (∀ info : Option Half, let s := txIs .waitForReady { Answers.none with repeaterInfo := [info] };
      s.txIn .waitForReady ∧ s.params.wfrPollOnPoll = true ∧ s.delaysReturn ∧
        s.answers = { Answers.none with repeaterInfo := info :: [] }) ∧
    (∀ reads : List ReadAnswer,
      let s := txIs .waitForReady { Answers.none with
        mo := [0#64, 0#64, 0#64], reads := reads, repeaterInfo := [some 0x0101#16] }
      enteredWith reads = { s with
        tx := { s.tx with repeaterInfo := 0x0101#16 }, timer := stoppedTimer s.params s.timer
        answers := { s.answers with repeaterInfo := [] }, draws := s.draws + 1
        requests := s.requests ++ [.portGetRepeaterInfo] ++ stopRequests s.params }) ∧
    [0x0080#16, 0x0800#16, 0x00FF#16, 0x087F#16].all (fun i => i.getLsbD 7 = true ∨ i.getLsbD 11 = true) = true ∧
    [0x0000#16, 0xF700#16].all (fun i => i.getLsbD 7 = false ∧ i.getLsbD 11 = false ∧ i.extractLsb' 0 7 = 0#7) =
      true ∧
    [0x0001#16, 0xF77F#16].all (fun i => i.getLsbD 7 = false ∧ i.getLsbD 11 = false ∧ i.extractLsb' 0 7 ≠ 0#7) =
      true :=
  ⟨fun _ => ⟨⟨rfl, rfl, rfl⟩, rfl, fun _ h => absurd h List.not_mem_nil, rfl⟩, fun _ => rfl, by decide, by decide,
    by decide⟩

/-- A pair of each kind: a transient state, the link events, a stale timeout, a poll the parameter switches off. -/
theorem test_meets_TxIgnoredEventsChangeNothing :
    (txIs .testForRepeater).txIn .testForRepeater ∧ txHandles txParams .disable .testForRepeater = false ∧
      txHandles txParams .phyDown .disabled = false ∧ txHandles txParams .phyUp .authenticated = false ∧
      txHandles txParams .timeout .authenticated = false ∧
      txHandles { txParams with wfrPollOnPoll := false } .poll .waitForReady = false :=
  ⟨⟨rfl, rfl, rfl⟩, by decide, by decide, by decide, by decide, by decide⟩

/-- Every state that takes the event; complete reads, a short `AKSV`, a short `AN`. -/
theorem test_meets_RxAuthenticateStartsComputations :
    ∀ st ∈ [RxState.unauthenticated, .authenticated, .linkIntegrityFailed, .computations],
      (let s := rxIs st { Answers.none with reads := [whole aksv, whole anBytesV11], repeater := [true] };
        s.rxIn st ∧ s.calm ∧ aksv.length = 5 ∧ anBytesV11.length = 8 ∧
          s.answers = { Answers.none with
            reads := { count := 5, bytes := aksv } :: { count := 8, bytes := anBytesV11 } :: []
            repeater := true :: [] }) ∧
      (let s := rxIs st { Answers.none with reads := [short 4] };
        s.rxIn st ∧ s.calm ∧ (short 4).count < 5 ∧ s.answers = { Answers.none with reads := short 4 :: [] }) ∧
      (let s := rxIs st { Answers.none with reads := [whole aksv, short 7] };
        s.rxIn st ∧ s.calm ∧ (short 7).count < 8 ∧
          s.answers = { Answers.none with reads := { count := 5, bytes := aksv } :: short 7 :: [] }) := by
  intro st _
  exact ⟨⟨⟨rfl, rfl, rfl⟩, ⟨⟨rfl, rfl⟩, rfl, rfl⟩, rfl, rfl, rfl⟩,
    ⟨⟨rfl, rfl, rfl⟩, ⟨⟨rfl, rfl⟩, rfl, rfl⟩, by decide, rfl⟩,
    ⟨rfl, rfl, rfl⟩, ⟨⟨rfl, rfl⟩, rfl, rfl⟩, by decide, rfl⟩

/-- Link up, link down under each protocol, a write of `BSTATUS` that is complete and one that is not, a short read. -/
theorem test_meets_RxCheckFollowsTheLink :
    (rxIs .authenticated { Answers.none with linkUp := [true] }).rxIn .authenticated ∧
      (rxIs .authenticated { Answers.none with linkUp := [true] }).answers =
        { Answers.none with linkUp := true :: [] } ∧
      ((rxIs .linkIntegrityFailed { Answers.none with linkUp := [false] }).rxIn .linkIntegrityFailed ∧
        (rxIs .linkIntegrityFailed { Answers.none with linkUp := [false] }).params.protocol = .hdmi) ∧
      (∀ w : Int, w = 1 ∨ w = -1 →
        let s := rxIs .authenticated { Answers.none with linkUp := [false], reads := [whole [0xFB#8]], writes := [w] } .dp
        s.rxIn .authenticated ∧ s.params.protocol = .dp ∧ w ≤ 1 ∧
          s.answers = { Answers.none with
            linkUp := false :: [], reads := { count := 1, bytes := [0xFB#8] } :: [], writes := w :: [] }) ∧
      (let s := rxIs .authenticated { Answers.none with linkUp := [false], reads := [short 0] } .dp;
        s.rxIn .authenticated ∧ s.params.protocol = .dp ∧ (short 0).count < 1 ∧
          s.answers = { Answers.none with linkUp := false :: [], reads := short 0 :: [] }) :=
  ⟨⟨rfl, rfl, rfl⟩, rfl, ⟨⟨rfl, rfl, rfl⟩, rfl⟩, fun _ h => ⟨⟨rfl, rfl, rfl⟩, rfl, by omega, rfl⟩,
    ⟨rfl, rfl, rfl⟩, rfl, by decide, rfl⟩

theorem test_meets_RxDisableEntersDisabled :
    (rxIs .phyDown).rxIn .phyDown ∧ RxState.phyDown ≠ .disabled ∧ (rxIs .phyDown).calm :=
  ⟨⟨rfl, rfl, rfl⟩, by decide, ⟨rfl, rfl⟩, rfl, rfl⟩

/-- A local KSV at the first request and at the second; a `BKSV` write that fails. -/
theorem test_meets_RxEnableLeavesDisabled :
    (let s := rxIs .disabled enableAnswers;
      s.rxIn .disabled ∧ s.calm ∧ (0xB70361F714#64 : Wide) ≠ 0#64 ∧
        s.answers = { Answers.none with localKsv := [0xB70361F714#64] ++ [], writes := 5 :: [] }) ∧
    (let s := rxIs .disabled { Answers.none with localKsv := [0#64, 0#64], writes := [-1] };
      s.rxIn .disabled ∧ s.calm ∧ (-1 : Int) ≤ 5 ∧
        s.answers = { Answers.none with localKsv := [0#64, 0#64] ++ [], writes := -1 :: [] }) :=
  ⟨⟨⟨rfl, rfl, rfl⟩, ⟨⟨rfl, rfl⟩, rfl, rfl⟩, by decide, rfl⟩,
    ⟨rfl, rfl, rfl⟩, ⟨⟨rfl, rfl⟩, rfl, rfl⟩, by decide, rfl⟩

theorem test_meets_RxPhyEventsMoveQuietly :
    ((rxIs .authenticated).rxIn .authenticated ∧ RxState.authenticated ≠ .disabled ∧
      RxState.authenticated ≠ .phyDown ∧ (rxIs .authenticated).calm) ∧
      ((rxIs .phyDown).rxIn .phyDown ∧ (rxIs .phyDown).calm) :=
  ⟨⟨⟨rfl, rfl, rfl⟩, by decide, by decide, ⟨rfl, rfl⟩, rfl, rfl⟩, ⟨rfl, rfl, rfl⟩, ⟨rfl, rfl⟩, rfl, rfl⟩

theorem test_meets_RxPollPublishesAndAuthenticates :
    (let s := rxIs .computations { Answers.none with complete := [false] };
      s.rxIn .computations ∧ s.calm ∧ s.answers = { Answers.none with complete := false :: [] }) ∧
    (let s := rxIs .computations { Answers.none with complete := [true], ri := [0xA55A#16], writes := [2] };
      s.rxIn .computations ∧ s.calm ∧ s.params.protocol = .hdmi ∧ (2 : Int) ≤ 2 ∧
        s.answers = { Answers.none with complete := true :: [], ri := 0xA55A#16 :: [], writes := 2 :: [] }) ∧
    (let s := rxIs .computations { Answers.none with complete := [true], ro := [0x8001#16], writes := [0] } .dp;
      s.rxIn .computations ∧ s.calm ∧ s.params.protocol = .dp ∧ (0 : Int) ≤ 2 ∧
        s.answers = { Answers.none with complete := true :: [], ro := 0x8001#16 :: [], writes := 0 :: [] }) :=
  ⟨⟨⟨rfl, rfl, rfl⟩, ⟨⟨rfl, rfl⟩, rfl, rfl⟩, rfl⟩,
    ⟨⟨rfl, rfl, rfl⟩, ⟨⟨rfl, rfl⟩, rfl, rfl⟩, rfl, by decide, rfl⟩,
    ⟨rfl, rfl, rfl⟩, ⟨⟨rfl, rfl⟩, rfl, rfl⟩, rfl, by decide, rfl⟩

theorem test_meets_RxUpdateRiCountsOnce :
    let s : State := { rxIs .authenticated { Answers.none with ri := [0x1357#16], writes := [0] } with
      pendingEvents := 0x0100#16 }
    s.rxIn .authenticated ∧ s.params.protocol = .hdmi ∧ (0 : Int) ≤ 2 ∧ s.accepts ∧ s.undisturbed ∧
      s.answers = { Answers.none with ri := 0x1357#16 :: [], writes := 0 :: [] } :=
  ⟨⟨rfl, rfl, rfl⟩, rfl, by decide, ⟨rfl, rfl⟩, rfl, rfl⟩

theorem test_meets_RxIgnoredEventsChangeNothing :
    (rxIs .authenticated .none .dp).rxIn .authenticated ∧ rxHandles (rxParams .dp) .updateRi .authenticated = false ∧
      rxHandles (rxParams .dp) .phyUp .authenticated = false ∧ rxHandles (rxParams .dp) .poll .disabled = false :=
  ⟨⟨rfl, rfl, rfl⟩, by decide, by decide, by decide⟩

/-- A count below, at and above the length asked for, negative ones included. -/
theorem test_meets_TransfersSucceedExactlyWhenWhole :
    (∀ k : Int, (txIs .disabled { Answers.none with reads := [short k], writes := [k] }).answers =
      { Answers.none with reads := short k :: [], writes := k :: [] }) ∧
      ((short (-1)).count < (5 : Nat) ∧ (short 4).count < (5 : Nat)) ∧
      ((whole bksv).count = (5 : Nat) ∧ (whole bksv).bytes.length = 5) ∧ ((5 : Nat) : Int) < (short 6).count :=
  ⟨fun _ => rfl, by decide, by decide, by decide⟩

/-- Two values that agree in bits 39:0 and differ above. -/
theorem test_meets_KsvValidityCountsLowBits :
    (0xFFFFFF00000FFFFF#64 : Wide).extractLsb' 0 40 = (0x00000FFFFF#64 : Wide).extractLsb' 0 40 ∧ bksv.length = 5 := by
  decide

theorem test_meets_PortBytesAndBRegistersLoseNothing : anBytesV11.length = 8 := by decide

/-- One answer for each refusal: each short transfer at one byte less than asked for. -/
theorem test_meets_ExchangeRefusalsCountShortTransfersOnly :
    let ones : List Byte := [0xFF#8, 0xFF#8, 0xFF#8, 0xFF#8, 0xFF#8]
    (txIs .exchangeKsvs { Answers.none with capable := [false] }).answers =
        { Answers.none with capable := false :: [] } ∧
      ((short 4).count < 5 ∧ (txIs .exchangeKsvs { Answers.none with reads := [short 4] }).answers =
        { Answers.none with reads := short 4 :: [] }) ∧
      (ones.length = 5 ∧ isValidKsv statedLiterals (unLE 64 ones) = false ∧
        (txIs .exchangeKsvs { Answers.none with reads := [whole ones] }).answers =
          { Answers.none with reads := wholeRead ones :: [] }) ∧
      (bksv.length = 5 ∧ isValidKsv statedLiterals (unLE 64 bksv) = true ∧ txParams.hooks.isKsvRevoked = true ∧
        (txIs .exchangeKsvs { Answers.none with reads := [whole bksv], revoked := [true] }).answers =
          { Answers.none with reads := wholeRead bksv :: [], revoked := true :: [] }) ∧
      ((7 : Int) < 8 ∧ (txIs .exchangeKsvs { Answers.none with writes := [7] }).answers =
        { Answers.none with writes := 7 :: [] }) ∧
      ((4 : Int) < 5 ∧ (txIs .exchangeKsvs { Answers.none with writes := [8, 4], localKsv := [0xCD1AF21E51#64] }).answers =
        { Answers.none with writes := 8 :: 4 :: [], localKsv := 0xCD1AF21E51#64 :: [] }) := by decide

theorem test_meets_GenerateAnIsNeverZero :
    txParams.literals.anFallback ≠ 0#64 ∧ (generateAn (txIs .exchangeKsvs { Answers.none with complete := [false, true], mi := [0#64] })).toOption.isSome =
        true ∧
      (txIs .exchangeKsvs { Answers.none with complete := [false, true], mi := [0#64] }).answers =
        { Answers.none with complete := List.replicate 1 false ++ true :: [], mi := 0#64 :: [] } := by decide

theorem test_meets_ReadinessCheckChoosesTheState :
    ∀ info : Option Half, (txIs .waitForReady { Answers.none with repeaterInfo := [info] }).answers =
      { Answers.none with repeaterInfo := info :: [] } := fun _ => rfl

/-- Five bytes in chunks of 4, whole, with the second read short and with the first; one read and none at all; a count
outside the contract. -/
theorem test_meets_KsvListReadIsWholeInChunks :
    1 ≤ txParams.ksvChunk ∧ chunkSizes 4 5 = [4, 1] ∧ chunkSizes 255 5 = [5] ∧ chunkSizes 4 8 = [4, 4] ∧
      chunkSizes 4 0 = [] ∧
      (chunks.map List.length = chunkSizes txParams.ksvChunk 5 ∧ chunks.flatten = bksv) ∧
      ((chunks.take 1).map List.length = (chunkSizes txParams.ksvChunk 5).take 1 ∧
        (chunkSizes txParams.ksvChunk 5)[1]? = some 1 ∧ (short 0).count < (1 : Nat)) ∧
      ((chunkSizes txParams.ksvChunk 5)[0]? = some 4 ∧ (short 3).count < (4 : Nat)) ∧
      ((readKsvFifo 5 5 [] (reading [short 5])).toOption.map Prod.fst = none) := by decide

/-- A list in two reads with all five words equal; the last word different; the first word different; the last word
short; the list short in its second read. -/
theorem test_meets_KsvListAttemptComparesTheDigest :
    let s := reading ((chunks ++ vPrimeA).map whole)
    let h := (sha1 (chunks.flatten ++ leBytes 2 s.tx.repeaterInfo ++ leBytes 8 0#64)).take 5
    let last := vPrimeA.take 4 ++ [[0x00#8, 0x00#8, 0x00#8, 0x00#8]]
    let first := [0x00#8, 0x00#8, 0x00#8, 0x00#8] :: vPrimeA.drop 1
    s.params.literals = statedLiterals ∧ 1 ≤ s.params.ksvChunk ∧
      chunkSizes s.params.ksvChunk (5 * (s.tx.repeaterInfo.extractLsb' 0 7).toNat) = chunks.map List.length ∧
      vPrimeA.length = 5 ∧ [vPrimeA, last, first].all (fun v => v.all fun b => b.length = 4) = true ∧
      s.answers = { Answers.none with
        mo := 0#64 :: [0#64, 0#64], reads := chunks.map wholeRead ++ (vPrimeA.map wholeRead ++ []) } ∧
      vPrimeA.map (unLE 32) = h ∧
      ((last.map (unLE 32)).take 4 = h.take 4 ∧ (last.map (unLE 32))[4]? ≠ h[4]?) ∧
      (first.map (unLE 32))[0]? ≠ h[0]? ∧ (short 3).count < (4 : Nat) ∧
      ((chunks.take 1).map List.length = [4, 1].take 1 ∧ [4, 1][1]? = some 1 ∧ (short 0).count < (1 : Nat)) := by
  decide +kernel

/-- The first success at the last attempt there is (two short lists before it), and a count outside the contract at the
first; `test_meets_attemptsFail` has the others. -/
theorem test_meets_ValidateKsvListEndsAtFirstSuccess :
    (let s := reading ([short 0, short 3] ++ (chunks ++ vPrimeA).map whole);
      (ksvListAttempt s).toOption.map Prod.fst = some false ∧
        (ksvListAttempt (attempted s)).toOption.map Prod.fst = some false ∧
        (ksvListAttempt (attempted (attempted s))).toOption.map Prod.fst = some true ∧
        (validateKsvList s).toOption.map (fun r => (r.1, r.2.tx.stats)) =
          some (.authenticated, { TxStats.zero with readFailures := 2 })) ∧
      (attemptsFail 0 (reading [short 5]) (reading [short 5]) ∧ (0 : Nat) < txParams.literals.nRetry ∧
        (ksvListAttempt (reading [short 5])).toOption.isNone = true) :=
  ⟨by decide +kernel, rfl, by decide, by decide⟩

theorem test_meets_ComparisonsCountTheirOutcomeOnce :
    (validateRx (txIs .validateRx { Answers.none with
        ro := [0x1234#16], reads := [short 1, short 1, short 1] })).toOption.map Prod.fst = some .unauthenticated ∧
      (validateRx (txIs .validateRx { Answers.none with
        ro := [0x1234#16], reads := [whole [0x34#8, 0x12#8]] })).toOption.map Prod.fst = some .testForRepeater ∧
      (linkIntegrityCheck (txIs .linkIntegrityCheck { Answers.none with
        ri := [0x1234#16], reads := [whole [0x34#8, 0x12#8]] })).toOption.map Prod.fst = some .authenticated ∧
      (let one := (chunks ++ [[0x00#8, 0x00#8, 0x00#8, 0x00#8]]).map whole;
        (validateKsvList (reading (one ++ one ++ one))).toOption.map
          (fun r => (r.1, r.2.tx.stats.authFailed)) = some (.unauthenticated, 1)) := by decide +kernel

theorem test_meets_DispatchEndsAtRest :
    (txIs .unauthenticated p1Answers).tx.currentState = TxState.unauthenticated.code ∧
      TxState.unauthenticated.resting = true ∧
      (txDispatch .authenticate (txIs .unauthenticated p1Answers)).toOption.isSome = true := by decide

/-- A sound Tx, in the middle of an attempt, that makes a step: P1 step 6. -/
theorem test_meets_StepKeepsInstanceSound :
    let s : State := { (txIs .computations { Answers.none with complete := [true] }).withFetchWord 72 0x02 with
      tx := { (txIs .computations).tx with an := statedLiterals.anFallback }, callbacks := txCallbacks }
    s.sound ∧ (after (step s)).isSome = true := by
  refine ⟨⟨rfl, ⟨fun e h => ?_, fun e h => ?_, fun e h => ?_⟩, by decide, .computations, ⟨rfl, rfl, rfl⟩, ?_, ?_, nofun⟩,
    by decide⟩
  · cases h; rfl
  · cases h; rfl
  · cases h; rfl
  · exact ⟨by decide, by decide, by decide, by decide, by decide⟩
  · exact ⟨fun _ => rfl, fun _ => by decide⟩

end Sys2Proof.Tests
end

section
/-! The statements of 10_state.md about `Ready` and the parameters. Both rest on one fact: a step writes no parameter
and writes `Ready` only to set it. -/

namespace Sys2Proof.Machine

/-! ## What the parts of a step do to the parameters and to `Ready` -/

theorem State.asks_ready {s t : State} (h : s.asks t) : t.ready = s.ready := by
  obtain ⟨a, d, rs, rfl⟩ := h; rfl

@[simp] theorem State.takeInterrupt_params (s : State) (i : Interrupt) : (s.takeInterrupt i).params = s.params := by
  obtain ⟨p, t, h, -⟩ := s.takeInterrupt_eq i; rw [h]; rfl

@[simp] theorem State.takeInterrupt_ready (s : State) (i : Interrupt) : (s.takeInterrupt i).ready = s.ready := by
  obtain ⟨p, t, h, -⟩ := s.takeInterrupt_eq i; rw [h]; rfl

/-- A command's post writes `PendingEvents` only, whatever the direction (41_event_queue.md R151). -/
theorem State.postFor_eq (s : State) (t : TxEvent) (r : RxEvent) : ∃ p, s.postFor t r = s.setPending p := by
  unfold State.postFor
  split
  · exact ⟨_, s.post_eq (.tx t)⟩
  · exact ⟨_, s.post_eq (.rx r)⟩

/-- `TIMEOUT` writes `PendingEvents` at most (40_commands.md R135). -/
theorem State.postTimeout_eq (s : State) : ∃ p, s.postTimeout = s.setPending p := by
  unfold State.postTimeout
  split
  · exact ⟨_, s.post_eq (.tx .timeout)⟩
  · exact ⟨s.pendingEvents, rfl⟩

/-- `ENENC` on a Tx writes the map; from there on it only asks (40_commands.md R132). -/
theorem enencBody_asks {m : Wide} {s t : State} {r : Result} (d : s.params.direction = .tx)
    (h : enencBody m s = .ok (r, t)) :
    (s.setTx { s.tx with encryptionMap := s.tx.encryptionMap ||| m }).asks t := by
  unfold enencBody at h
  simp only [d] at h
  obtain ⟨st, -, h⟩ := bind_eq_ok h
  obtain ⟨-, h⟩ := succeed_eq_ok h
  split at h
  · exact applyEncryption_spec h
  · cases h; exact State.asks_refl _

/-- `DISENC` on a Tx writes the map, then issues one request (40_commands.md R133). -/
theorem disencBody_asks {m : Wide} {s t : State} {r : Result} (d : s.params.direction = .tx)
    (h : disencBody m s = .ok (r, t)) :
    (s.setTx { s.tx with encryptionMap := s.tx.encryptionMap &&& ~~~m }).asks t := by
  unfold disencBody at h
  simp only [d] at h
  cases h
  exact State.asks_issue _ _

@[simp] theorem initialise_params (s : State) : (initialise s).params = s.params := by
  cases d : s.params.direction with
  | tx => obtain ⟨p, t, l, -, -, e⟩ := initialise_tx d; rw [e]
  | rx => obtain ⟨p, t, l, -, -, e⟩ := initialise_rx d; rw [e]

@[simp] theorem initialise_ready (s : State) : (initialise s).ready = true := rfl

/-- A property of the parameters and of `Ready` alone, which setting `Ready` does not break, is kept by every part of a
step (10_state.md R34, R38). -/
theorem keptAll_of_params_ready {Q : Params → Bool → Prop} (up : ∀ p r, Q p r → Q p true) :
    KeptAll fun s => Q s.params s.ready where
  result _ _ h := h
  inputs _ _ h := h
  arrivals _ _ h := h
  interrupt s i h := by simpa using h
  post s t r h := by obtain ⟨p, e⟩ := s.postFor_eq t r; simpa [e] using h
  timeout s h := by obtain ⟨p, e⟩ := s.postTimeout_eq; simpa [e] using h
  clear _ h := h
  dispatchTx s t e _ run h := by
    have ev := txDispatch_evolves run
    rw [State.txEvolves_params ev, State.txEvolves_ready ev]; exact h
  dispatchRx s t e _ run h := by
    have ev := rxDispatch_evolves run
    rw [State.rxEvolves_params ev, State.rxEvolves_ready ev]; exact h
  lanes _ _ h := h
  keys _ _ h := h
  info _ h := h
  getenc s _ h := by
    have a := s.asks_cipherGetEncryption
    rw [State.asks_params a, State.asks_ready a]; exact h
  init s h := by simpa using up _ _ h
  enenc s t m r d body h := by
    have a := enencBody_asks d body
    rw [State.asks_params a, State.asks_ready a]; exact h
  disenc s t m r d body h := by
    have a := disencBody_asks d body
    rw [State.asks_params a, State.asks_ready a]; exact h

/-! ## The command frame (40_commands.md R120) -/

/-- Every host command but `CFGINIT` runs its body inside the one frame. -/
theorem exec_eq_commandFrame {i : Instr} (hi : i.eventDirection = none) (hc : i ≠ .cfginit) :
    ∃ body, ∀ s, exec i s = commandFrame body s := by
  cases i with
  | cfginit => exact absurd rfl hc
  | poll | reset | enable | disable | setphy _ | setlanes _ | auth | isinprog | isauth | getenc | enenc _ | disenc _
  | setkeysel _ | timeout | info | getver => exact ⟨_, fun _ => rfl⟩
  | txAuthenticate | txCheck | txDisable | txEnable | txLinkdown | txPhydown | txPhyup | txPoll | txTimeout
  | rxAuthenticate | rxCheck | rxDisable | rxEnable | rxPhydown | rxPhyup | rxPoll | rxUpdateRi => cases hi

/-- A command that is not let through changes its result only. -/
theorem commandFrame_of_not_accepts {body : State → Except Fault (Result × State)} {s : State} (h : ¬ s.accepts) :
    commandFrame body s = .next { s with result := some .failure } := by
  unfold commandFrame
  split
  · next hr =>
    split
    · next hp => exact absurd ⟨hr, hp⟩ h
    · rfl
  · rfl

theorem exec_of_not_accepts {s : State} {i : Instr} (hi : i.eventDirection = none) (hc : i ≠ .cfginit)
    (h : ¬ s.accepts) : exec i s = .next { s with result := some .failure } := by
  obtain ⟨body, e⟩ := exec_eq_commandFrame hi hc
  rw [e, commandFrame_of_not_accepts h]

/-- `CFGINIT` in a direction that is built in always succeeds. -/
theorem exec_cfginit_present {s : State} (h : Params.directionPresent s.params = true) :
    exec .cfginit s = .next ((initialise s).setResult .success) := by
  simp [exec, execCfginit, initFrame, h, cfginitBody, finish]

theorem exec_cfginit_absent {s : State} (h : Params.directionPresent s.params = false) :
    exec .cfginit s = .next { s with result := some .failure } := by
  simp [exec, execCfginit, initFrame, h, commandFailure, State.setResult]

/-- In an absent direction no host command is let through, `CFGINIT` included. -/
theorem exec_of_direction_absent {s : State} {i : Instr} (hi : i.eventDirection = none)
    (h : Params.directionPresent s.params = false) : exec i s = .next { s with result := some .failure } := by
  by_cases hc : i = .cfginit
  · subst hc; exact exec_cfginit_absent h
  · exact exec_of_not_accepts hi hc fun a => by simpa [h] using a.2

/-! ## The statements -/

/-- Settles O15: the value of the parameters is a property that no part of a step breaks. -/
theorem stepKeepsParameters : Obligations.StepKeepsParameters := by
  intro s t h
  exact (keptAll_of_params_ready (Q := fun p _ => p = s.params) fun _ _ h => h).step h rfl

/-- Settles O14: `Ready` at 1 is a property that no part of a step breaks; the frame does the rest. -/
theorem readyRecordsInitialisation : Obligations.ReadyRecordsInitialisation := by
  refine ⟨fun _ => rfl, rfl, fun s hp => ?_, fun s t h hr => ?_, fun s i hi hc hr => ?_, fun s i hi hp => ?_⟩
  · exact ⟨_, exec_cfginit_present hp, initialise_ready s⟩
  · exact (keptAll_of_params_ready (Q := fun _ r => r = true) fun _ _ _ => rfl).step h hr
  · exact exec_of_not_accepts hi hc fun a => by simpa [hr] using a.1
  · exact exec_of_direction_absent hi hp

end Sys2Proof.Machine
end

section
/-! The statements of 30_encoding.md about the words that name no command and about KSVs. -/

namespace Sys2Proof.Machine

/-! ## The fields and formats of a command word (30_encoding.md R96) -/

/-- Bits of the operand field are bits of the word, eight places up. -/
theorem operandField_extractLsb' (w : CommandWord) {k n : Nat} (h : k + n ≤ 64) :
    (operandField w).extractLsb' k n = w.extractLsb' (8 + k) n := by
  ext i hi
  have hk : k + i < 64 := by omega
  simp [operandField, hk, Nat.add_assoc]

theorem formatC0_of_eq_zero {op : Byte} {x : Wide} {i : Instr} (h : x = 0#64) : formatC0 op x i = .ok i := if_pos h

theorem formatC0_of_ne_zero {op : Byte} {x : Wide} {i : Instr} (h : x ≠ 0#64) :
    formatC0 op x i = .error (.operandBitsSet op) := if_neg h

theorem formatCU_of_eq_zero {op : Byte} {x : Wide} {i : Bool → Instr} (h : x.extractLsb' 1 63 = 0#63) :
    formatCU op x i = .ok (i (x.getLsbD 0)) := if_pos h

theorem formatCU_of_ne_zero {op : Byte} {x : Wide} {i : Bool → Instr} (h : x.extractLsb' 1 63 ≠ 0#63) :
    formatCU op x i = .error (.operandBitsSet op) := if_neg h

theorem formatCN_of_eq_zero {op : Byte} {x : Wide} {i : Byte → Instr} (h : x.extractLsb' 8 56 = 0#56) :
    formatCN op x i = .ok (i (x.extractLsb' 0 8)) := if_pos h

theorem formatCN_of_ne_zero {op : Byte} {x : Wide} {i : Byte → Instr} (h : x.extractLsb' 8 56 ≠ 0#56) :
    formatCN op x i = .error (.operandBitsSet op) := if_neg h

/-! ## The opcodes by format (30_encoding.md R97) -/

section
variable {w : CommandWord}

theorem decodeCommand_of_opcode_C0
    (h : (opcodeField w).toNat ∈ [0x01, 0x02, 0x03, 0x04, 0x05, 0x08, 0x09, 0x0A, 0x0B, 0x0F, 0x10, 0x11]) :
    ∃ i : Instr, i.eventDirection = none ∧ decodeCommand w = formatC0 (opcodeField w) (operandField w) i := by
  simp only [List.mem_cons, List.not_mem_nil, or_false] at h
  rcases h with h | h | h | h | h | h | h | h | h | h | h | h <;>
    (unfold decodeCommand; simp only [h]; exact ⟨_, rfl, rfl⟩)

theorem decodeCommand_of_opcode_CU (h : (opcodeField w).toNat = 0x06) :
    decodeCommand w = formatCU (opcodeField w) (operandField w) .setphy := by
  unfold decodeCommand; simp only [h]

theorem decodeCommand_of_opcode_CN (h : (opcodeField w).toNat ∈ [0x07, 0x0E]) :
    ∃ i : Byte → Instr, (∀ n, (i n).eventDirection = none) ∧
      decodeCommand w = formatCN (opcodeField w) (operandField w) i := by
  simp only [List.mem_cons, List.not_mem_nil, or_false] at h
  rcases h with h | h <;> (unfold decodeCommand; simp only [h]; exact ⟨_, fun _ => rfl, rfl⟩)

theorem decodeCommand_of_opcode_CM (h : (opcodeField w).toNat ∈ [0x0C, 0x0D]) :
    ∃ i : Instr, i.eventDirection = none ∧ decodeCommand w = .ok i := by
  simp only [List.mem_cons, List.not_mem_nil, or_false] at h
  rcases h with h | h <;> (unfold decodeCommand; simp only [h]; exact ⟨_, rfl, rfl⟩)

theorem decodeCommand_of_illegal_opcode (h : (opcodeField w).toNat = 0 ∨ 0x12 ≤ (opcodeField w).toNat) :
    decodeCommand w = .error (.illegalOpcode (opcodeField w)) := by
  unfold decodeCommand
  dsimp only
  split
  case h_18 => rfl
  all_goals omega

/-! ## The words that name no command (30_encoding.md R98) -/

/-- A command word that is rejected ends with `FAILURE`, whatever the direction and the state. -/
theorem step_of_decodeCommand_error {s : State} {rest : List Input} {e : DecodeError}
    (hs : s.inputs = .fetch (.command w) :: rest) (hw : decodeCommand w = .error e)
    (he : rejectedWord e (s.setInputs rest) = commandFailure (s.setInputs rest)) :
    step s = .next { s with inputs := rest, result := some .failure } := by
  have hd : decode s.params.direction (.command w) = .error e := hw
  unfold step
  simp only [hs, hd, he]
  rfl

/-- Every opcode has one of the four formats or names no command. -/
theorem opcode_cases {op : Nat} (h0 : op ≠ 0) (h1 : op < 0x12) :
    op ∈ [0x01, 0x02, 0x03, 0x04, 0x05, 0x08, 0x09, 0x0A, 0x0B, 0x0F, 0x10, 0x11] ∨ op = 0x06 ∨ op ∈ [0x07, 0x0E] ∨
      op ∈ [0x0C, 0x0D] := by
  simp only [List.mem_cons, List.not_mem_nil, or_false]
  omega

end

/-- Settles O3: each format decodes exactly the words whose must-be-zero bits are zero, and every opcode has a format or
is illegal. -/
theorem illegalCommandWordsFail : Obligations.IllegalCommandWordsFail := by
  intro s w rest op illegal
  have hCU : (operandField w).extractLsb' 1 63 = w.extractLsb' 9 63 := operandField_extractLsb' w (by omega)
  have hCN : (operandField w).extractLsb' 8 56 = w.extractLsb' 16 56 := operandField_extractLsb' w (by omega)
  refine ⟨fun bad hs => ?_, fun good => ?_⟩
  · have step_of {e} := step_of_decodeCommand_error (e := e) hs
    rcases bad with h | h | ⟨h, hx⟩ | ⟨h, hx⟩ | ⟨h, hx⟩
    · exact step_of (decodeCommand_of_illegal_opcode (.inl h)) rfl
    · exact step_of (decodeCommand_of_illegal_opcode (.inr h)) rfl
    · obtain ⟨i, -, hi⟩ := decodeCommand_of_opcode_C0 h
      exact step_of (hi.trans (formatC0_of_ne_zero hx)) rfl
    · exact step_of ((decodeCommand_of_opcode_CU h).trans (formatCU_of_ne_zero (hCU ▸ hx))) rfl
    · obtain ⟨i, -, hi⟩ := decodeCommand_of_opcode_CN h
      exact step_of (hi.trans (formatCN_of_ne_zero (hCN ▸ hx))) rfl
  · simp only [illegal, not_or, not_and, not_not, Nat.not_le] at good
    obtain ⟨h0, h1, c0, cu, cn⟩ := good
    rcases opcode_cases h0 h1 with h | h | h | h
    · obtain ⟨i, ei, hi⟩ := decodeCommand_of_opcode_C0 h
      exact ⟨i, hi.trans (formatC0_of_eq_zero (c0 h)), ei⟩
    · exact ⟨_, (decodeCommand_of_opcode_CU h).trans (formatCU_of_eq_zero (hCU.trans (cu h))), rfl⟩
    · obtain ⟨i, ei, hi⟩ := decodeCommand_of_opcode_CN h
      exact ⟨_, hi.trans (formatCN_of_eq_zero (hCN.trans (cn h))), ei _⟩
    · obtain ⟨i, ei, hi⟩ := decodeCommand_of_opcode_CM h
      exact ⟨i, hi, ei⟩

/-! ## KSVs (30_encoding.md R99) -/

theorem isValidKsv_iff (l : Literals) (x : Wide) : isValidKsv l x = true ↔ popcountLow l.ksvBits x = l.ksvOnes := by
  simp [isValidKsv]

/-- Only the counted bits matter. -/
theorem popcountLow_congr {n : Nat} {x y : Wide} (h : ∀ i < n, x.getLsbD i = y.getLsbD i) :
    popcountLow n x = popcountLow n y := by
  unfold popcountLow
  rw [List.filter_congr fun i hi => h i (List.mem_range.1 hi)]

theorem getLsbD_eq_of_extractLsb'_eq {w n : Nat} {x y : BitVec w} (h : x.extractLsb' 0 n = y.extractLsb' 0 n)
    {i : Nat} (hi : i < n) : x.getLsbD i = y.getLsbD i := by
  simpa [BitVec.getLsbD_extractLsb', hi] using congrArg (BitVec.getLsbD · i) h

/-- `LE_n` depends on the low `8 n` bits of the value only. -/
theorem leBytes_congr {w n : Nat} {x y : BitVec w} (h : ∀ i < 8 * n, x.getLsbD i = y.getLsbD i) :
    leBytes n x = leBytes n y := by
  induction n generalizing x y with
  | zero => rfl
  | succ n ih =>
    have head : x.setWidth 8 = y.setWidth 8 := by
      ext i hi
      simpa using h i (by omega)
    have tail : leBytes n (x >>> 8) = leBytes n (y >>> 8) := ih fun i hi => by
      simpa using h (8 + i) (by omega)
    rw [leBytes, leBytes, head, tail]

/-- `unLE` of a byte string has no bit set above its bytes. -/
theorem unLE_getLsbD_of_le {w : Nat} {b : List Byte} {i : Nat} (h : 8 * b.length ≤ i) :
    (unLE w b).getLsbD i = false := by
  induction b generalizing i with
  | nil => simp [unLE]
  | cons a b ih =>
    rw [List.length_cons] at h
    have head : a.getLsbD i = false := BitVec.getLsbD_of_ge a i (by omega)
    have tail : (unLE w b).getLsbD (i - 8) = false := ih (by omega)
    simp [unLE, head, tail]

/-- Settles O48: the check counts the low bits only, and `LE_5` and `unLE` of five bytes carry those bits and no
other. -/
theorem ksvValidityCountsLowBits : Obligations.KsvValidityCountsLowBits := by
  refine ⟨isValidKsv_iff statedLiterals, isValidKsv_iff, fun x y h => ?_, by decide, by decide, by decide, fun x => ?_,
    fun b hb => ?_⟩
  · have count : popcountLow 40 x = popcountLow 40 y :=
      popcountLow_congr fun i hi => getLsbD_eq_of_extractLsb'_eq h hi
    exact congrArg (· == 20) count
  · refine leBytes_congr fun i hi => ?_
    have mask : (0xFFFFFFFFFF#64 : Wide) = (BitVec.allOnes 40).setWidth 64 := rfl
    have low : i < 40 := hi
    have wide : i < 64 := by omega
    rw [mask, BitVec.getLsbD_and, BitVec.getLsbD_setWidth, BitVec.getLsbD_allOnes]
    simp [low, wide]
  · ext i hi
    have above : 8 * b.length ≤ 40 + i := by rw [hb]; exact Nat.le_add_right 40 i
    simp [unLE_getLsbD_of_le above]

end Sys2Proof.Machine
end

section
/-! The statements of 40_commands.md about `SETLANES`, `SETKEYSEL`, `ISINPROG`, `ISAUTH`, `GETENC`, `GETVER`, `ENENC`
and `DISENC`: commands that read or write one thing and run no drain. -/

namespace Sys2Proof.Machine

/-! ## Words put together from an opcode and an operand field (30_encoding.md R96, R97) -/

@[simp] theorem opcodeField_append (x : Wide) (op : Byte) : opcodeField (x ++ op) = op :=
  BitVec.extractLsb'_append_eq_right

@[simp] theorem operandField_append (x : Wide) (op : Byte) : operandField (x ++ op) = x :=
  BitVec.extractLsb'_append_eq_left

/-- A byte operand has nothing in its must-be-zero bits and is read back whole. -/
theorem formatCN_setWidth (op n : Byte) (i : Byte → Instr) : formatCN op (n.setWidth 64) i = .ok (i n) := by
  have high : (n.setWidth 64).extractLsb' 8 56 = 0#56 := by ext j hj; simp
  have low : (n.setWidth 64).extractLsb' 0 8 = n :=
    (BitVec.extractLsb'_setWidth_of_le (by decide)).trans BitVec.extractLsb'_eq_self
  rw [formatCN_of_eq_zero high, low]

theorem decodeCommand_setlanes (n : Byte) : decodeCommand (n.setWidth 64 ++ 0x07#8) = .ok (.setlanes n) := by
  simp [decodeCommand, formatCN_setWidth]

theorem decodeCommand_setkeysel (n : Byte) : decodeCommand (n.setWidth 64 ++ 0x0E#8) = .ok (.setkeysel n) := by
  simp [decodeCommand, formatCN_setWidth]

theorem decodeCommand_enenc (m : Wide) : decodeCommand (m ++ 0x0C#8) = .ok (.enenc m) := by
  simp [decodeCommand]

theorem decodeCommand_disenc (m : Wide) : decodeCommand (m ++ 0x0D#8) = .ok (.disenc m) := by
  simp [decodeCommand]

/-! ## The frame lets a command through (40_commands.md R120) -/

theorem commandFrame_of_accepts {body : State → Except Fault (Result × State)} {s : State} (h : s.accepts) :
    commandFrame body s = finish (body s) := by
  obtain ⟨ready, present⟩ := h
  simp [commandFrame, ready, present]

/-- A body that answers gives the command its result and its state. -/
theorem commandFrame_of_ok {body : State → Except Fault (Result × State)} {s t : State} {r : Result}
    (h : s.accepts) (hb : body s = .ok (r, t)) : commandFrame body s = .next (t.setResult r) := by
  rw [commandFrame_of_accepts h, hb, finish]

/-! ## The state registers of a legal state (30_encoding.md R91, R92) -/

theorem txCurrent_of_code {s : State} {st : TxState} (h : s.tx.currentState = st.code) : txCurrent s = .ok st := by
  simp [txCurrent, h]

theorem rxCurrent_of_code {s : State} {st : RxState} (h : s.rx.currentState = st.code) : rxCurrent s = .ok st := by
  simp [rxCurrent, h]

/-! ## `ApplyEncryption()` with delays that return (43_tx_procedures.md R221) -/

/-- A busy delay that returns issues its request and takes its answer (20_memory.md R69). -/
theorem State.busyDelay_of_delaysReturn {s : State} (hook : s.params.hooks.timerBusyDelay = true)
    (h : s.delaysReturn) (ms : Nat) :
    s.busyDelay ms =
      .ok ((s.issue (.timerBusyDelay ms)).takeAnswer { s.answers with delays := s.answers.delays.drop 1 }) := by
  unfold State.busyDelay
  cases listed : s.answers.delays with
  | nil =>
    have unlisted : { s.answers with delays := [] } = s.answers := by rw [← listed]
    simp [hook, unlisted]
  | cons b later =>
    have returns : b = true := h b (by simp [listed])
    simp [hook, returns]

theorem State.busyDelay_of_no_hook {s : State} (hook : s.params.hooks.timerBusyDelay = false) (ms : Nat) :
    s.busyDelay ms = .ok s := by
  simp [State.busyDelay, hook]

theorem State.delaysReturn_drop {s t : State} {n : Nat} (h : s.delaysReturn)
    (ht : t.answers.delays = s.answers.delays.drop n) : t.delaysReturn :=
  fun b hb => h b (List.mem_of_mem_drop (ht ▸ hb))

theorem State.delaysReturn_setTx {s : State} (h : s.delaysReturn) (r : TxRegs) : (s.setTx r).delaysReturn := h

/-- The whole state after `ApplyEncryption()`: two delays around the one cipher request, or nothing for an empty map. -/
theorem applyEncryption_of_delaysReturn {s : State} (h : s.delaysReturn) :
    applyEncryption s = .ok { s with
      answers := { s.answers with delays := s.answers.delays.drop (settleCount s.params s.tx.encryptionMap) }
      draws := s.draws + settleCount s.params s.tx.encryptionMap
      requests := s.requests ++ settleRequests s.params s.tx.encryptionMap } := by
  unfold applyEncryption
  by_cases empty : s.tx.encryptionMap = 0#64
  · simp [empty, settleCount, settleRequests]
  · cases hook : s.params.hooks.timerBusyDelay with
    | false =>
      simp [empty, hook, State.busyDelay_of_no_hook, settleCount, settleRequests, delayRequests, State.issue]
    | true =>
      rw [if_neg empty, State.busyDelay_of_delaysReturn hook h, ok_bind, State.busyDelay_of_delaysReturn]
      case hook => exact hook
      case h => exact State.delaysReturn_drop (n := 1) h rfl
      simp [empty, hook, settleCount, settleRequests, delayRequests, State.issue, State.takeAnswer]

/-! ## What each body does -/

/-- `SETLANES`, `SETKEYSEL` and `GETVER` have bodies of one line, with no name of their own. -/
theorem exec_setlanes (n : Byte) (s : State) :
    exec (.setlanes n) s = commandFrame (fun s => .ok (.success, s.issue (.cipherSetLaneCount n))) s := rfl

theorem exec_setkeysel (n : Byte) (s : State) :
    exec (.setkeysel n) s = commandFrame (fun s => .ok (.success, s.issue (.cipherSetKeySelect n))) s := rfl

theorem exec_getver (s : State) :
    exec .getver s = commandFrame (fun s => .ok (.version s.params.version, s)) s := rfl

section
variable {s : State}

theorem isinprogBody_tx {st : TxState} (d : s.params.direction = .tx) (h : s.tx.currentState = st.code) :
    isinprogBody s = .ok (.flag st.inProgress, s) := by
  simp [isinprogBody, d, txCurrent_of_code h]

theorem isinprogBody_rx {st : RxState} (d : s.params.direction = .rx) (h : s.rx.currentState = st.code) :
    isinprogBody s = .ok (.flag st.inProgress, s) := by
  simp [isinprogBody, d, rxCurrent_of_code h]

theorem isauthBody_tx {st : TxState} (d : s.params.direction = .tx) (h : s.tx.currentState = st.code) :
    isauthBody s = .ok (.flag st.isAuth, s) := by
  simp [isauthBody, d, txCurrent_of_code h]

theorem isauthBody_rx {st : RxState} (d : s.params.direction = .rx) (h : s.rx.currentState = st.code) :
    isauthBody s = .ok (.flag st.isAuth, s) := by
  simp [isauthBody, d, rxCurrent_of_code h]

theorem getencBody_tx (d : s.params.direction = .tx) : getencBody s = .ok (.map s.tx.encryptionMap, s) := by
  simp [getencBody, d]

theorem getencBody_rx (d : s.params.direction = .rx) :
    getencBody s = .ok (.map s.cipherGetEncryption.1, s.cipherGetEncryption.2) := by
  simp [getencBody, d]

/-- On a Tx `ENENC` writes the map first; what follows sees the new map (40_commands.md R132). -/
theorem enencBody_tx {st : TxState} (d : s.params.direction = .tx) (h : s.tx.currentState = st.code) (m : Wide) :
    enencBody m s = succeed (if st = .authenticated
      then applyEncryption (s.setTx { s.tx with encryptionMap := s.tx.encryptionMap ||| m })
      else .ok (s.setTx { s.tx with encryptionMap := s.tx.encryptionMap ||| m })) := by
  have current := txCurrent_of_code (s := s.setTx { s.tx with encryptionMap := s.tx.encryptionMap ||| m }) h
  simp [enencBody, d, current]

theorem enencBody_rx (d : s.params.direction = .rx) (m : Wide) : enencBody m s = .ok (.failure, s) := by
  simp [enencBody, d]

theorem disencBody_tx (d : s.params.direction = .tx) (m : Wide) :
    disencBody m s = .ok (.success,
      (s.setTx { s.tx with encryptionMap := s.tx.encryptionMap &&& ~~~m }).issue (.cipherDisableEncryption m)) := by
  simp [disencBody, d]

theorem disencBody_rx (d : s.params.direction = .rx) (m : Wide) : disencBody m s = .ok (.failure, s) := by
  simp [disencBody, d]

end

/-! ## What the states answer (40_commands.md R129, R130) -/

theorem TxState.inProgress_eq_mem (st : TxState) :
    st.inProgress = decide (st ∈ [TxState.determineRxCapable, .exchangeKsvs, .computations, .validateRx,
      .testForRepeater, .waitForReady, .readKsvList]) := by
  cases st <;> rfl

theorem TxState.isAuth_eq_mem (st : TxState) :
    st.isAuth = decide (st ∈ [TxState.authenticated, .linkIntegrityCheck]) := by
  cases st <;> rfl

/-- The states of an attempt that can be seen at rest (41_event_queue.md R158). -/
theorem TxState.resting_inProgress (st : TxState) (rests : st.resting = true) (runs : st.inProgress = true) :
    st ∈ [TxState.computations, .validateRx, .waitForReady] := by
  cases st with
  | computations | validateRx | waitForReady => simp
  | disabled | authenticated | unauthenticated | phyDown => cases runs
  | determineRxCapable | exchangeKsvs | linkIntegrityCheck | testForRepeater | readKsvList => cases rests

theorem RxState.inProgress_eq (st : RxState) : st.inProgress = decide (st = .computations) := by
  cases st <;> rfl

theorem RxState.isAuth_eq (st : RxState) : st.isAuth = decide (st = .authenticated) := by
  cases st <;> rfl

/-! ## The statements -/

/-- Settles O23: the body sees the new map, and with delays that return `ApplyEncryption()` runs to its end. -/
theorem enencAddsToTheMap : Obligations.EnencAddsToTheMap := by
  refine ⟨decodeCommand_enenc, fun s st m ha d hst other => ?_, fun s m ha d hst returns => ?_, fun s m ha d => ?_,
    fun s m ha => exec_of_not_accepts rfl nofun ha⟩
  · have body := enencBody_tx d hst m
    rw [if_neg other] at body
    exact commandFrame_of_ok ha body
  · have body := enencBody_tx d hst m
    rw [if_pos rfl, applyEncryption_of_delaysReturn (State.delaysReturn_setTx returns _)] at body
    exact commandFrame_of_ok ha body
  · exact commandFrame_of_ok ha (enencBody_rx d m)

/-- Settles O18: each body is its one request. -/
theorem setlanesAndSetkeyselAskTheCipher : Obligations.SetlanesAndSetkeyselAskTheCipher :=
  ⟨fun n => ⟨decodeCommand_setlanes n, decodeCommand_setkeysel n⟩,
    fun s n ha => ⟨(exec_setlanes n s).trans (commandFrame_of_accepts ha),
      (exec_setkeysel n s).trans (commandFrame_of_accepts ha)⟩,
    fun _ _ ha => ⟨exec_of_not_accepts rfl nofun ha, exec_of_not_accepts rfl nofun ha⟩⟩

/-- Settles O19: each body reads the current state and answers what the state's own table says. -/
theorem isinprogAndIsauthReadTheState : Obligations.IsinprogAndIsauthReadTheState := by
  refine ⟨rfl, rfl, fun s st ha d hst => ?_, fun s st ha d hst => ?_,
    fun s ha => ⟨exec_of_not_accepts rfl nofun ha, exec_of_not_accepts rfl nofun ha⟩⟩
  · rw [← st.inProgress_eq_mem, ← st.isAuth_eq_mem]
    exact ⟨commandFrame_of_ok ha (isinprogBody_tx d hst), commandFrame_of_ok ha (isauthBody_tx d hst),
      st.resting_inProgress⟩
  · rw [← st.inProgress_eq, ← st.isAuth_eq]
    exact ⟨commandFrame_of_ok ha (isinprogBody_rx d hst), commandFrame_of_ok ha (isauthBody_rx d hst)⟩

/-- Settles O20: a Tx answers its register, an Rx what it draws from the cipher, listed or free. -/
theorem getencAndGetverAnswer : Obligations.GetencAndGetverAnswer := by
  refine ⟨rfl, rfl, fun s ha d => commandFrame_of_ok ha (getencBody_tx d), fun s m a ha d listed => ?_,
    fun s ha d unlisted => ⟨Config.freeWide s.draws, ?_⟩,
    fun s ha => (exec_getver s).trans (commandFrame_of_accepts ha),
    fun s ha => ⟨exec_of_not_accepts rfl nofun ha, exec_of_not_accepts rfl nofun ha⟩⟩
  · have body := getencBody_rx d
    simp only [State.cipherGetEncryption, listed, State.draw_cons] at body
    exact commandFrame_of_ok ha body
  · have body := getencBody_rx d
    simp only [State.cipherGetEncryption, unlisted, State.draw_nil] at body
    exact commandFrame_of_ok ha body

/-- Settles O24: the body writes the map and issues the one request; `PHYUP` posts nothing for an empty map. -/
theorem disencRemovesFromTheMap : Obligations.DisencRemovesFromTheMap := by
  refine ⟨decodeCommand_disenc, fun s m ha d => commandFrame_of_ok ha (disencBody_tx d m), fun s empty => ?_,
    fun s m ha d => commandFrame_of_ok ha (disencBody_rx d m), fun s m ha => exec_of_not_accepts rfl nofun ha⟩
  simp [txRun, txRunPhyUp, empty]

end Sys2Proof.Machine
end

section
/-! The statements of 43_tx_procedures.md about `ReadinessCheck` and `ValidateKsvList`. -/

namespace Sys2Proof.Machine

/-! ## `ReadinessCheck()` (43_tx_procedures.md R217) -/

/-- A listed answer about the repeater is taken whole: nothing but the query shows in the state. -/
theorem State.portGetRepeaterInfo_of_listed {s : State} {a : Answers} {info : Option Half}
    (h : s.answers = { a with repeaterInfo := info :: a.repeaterInfo }) :
    s.portGetRepeaterInfo = (info, { s with
      answers := a, draws := s.draws + 1, requests := s.requests ++ [.portGetRepeaterInfo] }) := by
  rw [State.portGetRepeaterInfo, h, State.draw_cons]
  rfl

theorem readinessCheck_of_none {s s1 : State} (h : s.portGetRepeaterInfo = (none, s1)) (atTimeout : Bool) :
    readinessCheck atTimeout s = (if atTimeout then .unauthenticated else .waitForReady, s1) := by
  rw [readinessCheck, h]

theorem readinessCheck_of_some {s s1 : State} {i : Half} (h : s.portGetRepeaterInfo = (some i, s1))
    (atTimeout : Bool) :
    readinessCheck atTimeout s =
      (if repeaterOverflow i then .unauthenticated else if deviceCount i = 0 then .authenticated else .readKsvList,
        s1.setRepeaterInfo i) := by
  rw [readinessCheck, h]

theorem repeaterOverflow_iff (i : Half) : repeaterOverflow i = true ↔ i.getLsbD 7 = true ∨ i.getLsbD 11 = true := by
  simp [repeaterOverflow]

theorem deviceCount_eq_zero_iff (i : Half) : deviceCount i = 0 ↔ i.extractLsb' 0 7 = 0#7 := by
  rw [deviceCount, ← BitVec.toNat_inj]
  rfl

/-- Settles O52: the two runs are entries of the table, and the answer decides the rest. -/
theorem readinessCheckChoosesTheState : Obligations.ReadinessCheckChoosesTheState := by
  refine ⟨fun _ => ⟨rfl, rfl⟩, fun s atTimeout a info listed => ⟨fun hi => ?_, fun i hi => ?_⟩⟩
  · subst hi
    exact readinessCheck_of_none (State.portGetRepeaterInfo_of_listed listed) atTimeout
  · subst hi
    rw [readinessCheck_of_some (State.portGetRepeaterInfo_of_listed listed)]
    simp only [repeaterOverflow_iff, deviceCount_eq_zero_iff]
    rfl

/-! ## Work that asks and counts failed reads, and does nothing else -/

/-- `s` asks its collaborators, may count failed reads on the way, and becomes `t`. -/
def State.asksCountingReads (s t : State) : Prop :=
  ∃ (v : State) (c : Nat), s.asks v ∧
    t = { v with tx := { s.tx with stats := { s.tx.stats with readFailures := c } } }

theorem State.asksCountingReads_of_asks {s t : State} (h : s.asks t) : s.asksCountingReads t := by
  refine ⟨t, s.tx.stats.readFailures, h, ?_⟩
  rw [← State.asks_tx h]

theorem State.asksCountingReads_refl (s : State) : s.asksCountingReads s :=
  State.asksCountingReads_of_asks s.asks_refl

theorem State.asksCountingReads_trans {s t u : State} (h : s.asksCountingReads t) (g : t.asksCountingReads u) :
    s.asksCountingReads u := by
  obtain ⟨_, c, ⟨a, d, rs, rfl⟩, rfl⟩ := h
  obtain ⟨_, c', ⟨a', d', rs', rfl⟩, rfl⟩ := g
  exact ⟨_, c', ⟨a', d', rs ++ rs', rfl⟩, by simp⟩

theorem State.asksCountingReads_readFailure (s : State) : s.asksCountingReads s.readFailure :=
  ⟨s, _, s.asks_refl, rfl⟩

/-! ## The parts of an attempt count failed reads only (43_tx_procedures.md R219, R223) -/

theorem readKsvFifo_asksCountingReads {fuel left : Nat} {list : List Byte} {s t : State} {r : Option (List Byte)}
    (h : readKsvFifo fuel left list s = .ok (r, t)) : s.asksCountingReads t := by
  induction fuel, left, list, s using readKsvFifo.induct with
  | case1 => rw [readKsvFifo] at h; cases h; exact State.asksCountingReads_refl _
  | case2 => cases h
  | case3 fuel left list s m ih =>
    unfold readKsvFifo at h
    obtain ⟨⟨answer, s1⟩, read, h⟩ := bind_eq_ok h
    have asked := State.asksCountingReads_of_asks (State.portRead_spec read).1
    cases answer with
    | none => cases h; exact State.asksCountingReads_trans asked s1.asksCountingReads_readFailure
    | some b => exact State.asksCountingReads_trans asked (ih b s1 h)

theorem compareVPrime_asksCountingReads {words : List (Byte × Word)} {s t : State} {ok : Bool}
    (h : compareVPrime words s = .ok (ok, t)) : s.asksCountingReads t := by
  induction words generalizing s with
  | nil => cases h; exact State.asksCountingReads_refl _
  | cons w words ih =>
    unfold compareVPrime at h
    obtain ⟨⟨answer, s1⟩, read, h⟩ := bind_eq_ok h
    have asked := State.asksCountingReads_of_asks (State.portRead_spec read).1
    cases answer with
    | none => cases h; exact State.asksCountingReads_trans asked s1.asksCountingReads_readFailure
    | some b =>
      simp only at h
      split at h
      · exact State.asksCountingReads_trans asked (ih h)
      · cases h; exact asked

theorem ksvListAttempt_asksCountingReads {s t : State} {ok : Bool} (h : ksvListAttempt s = .ok (ok, t)) :
    s.asksCountingReads t := by
  unfold ksvListAttempt at h
  obtain ⟨⟨list, s1⟩, read, h⟩ := bind_eq_ok h
  have listRead := readKsvFifo_asksCountingReads read
  cases list with
  | none => cases h; exact listRead
  | some list =>
    have asksMo := State.asksCountingReads_of_asks s1.asks_cipherGetMo
    exact State.asksCountingReads_trans listRead
      (State.asksCountingReads_trans asksMo (compareVPrime_asksCountingReads h))

/-! ## The attempts of `ValidateKsvList()` (43_tx_procedures.md R218) -/

theorem attemptsFail_asksCountingReads {n : Nat} {s u : State} (h : attemptsFail n s u) : s.asksCountingReads u := by
  induction n generalizing s with
  | zero => cases h; exact State.asksCountingReads_refl _
  | succ n ih =>
    obtain ⟨t, first, later⟩ := h
    exact State.asksCountingReads_trans (ksvListAttempt_asksCountingReads first) (ih later)

/-- After failed attempts, what is left of the attempts goes on from where they ended. -/
theorem ksvListAttempts_of_attemptsFail {n : Nat} {s u : State} (h : attemptsFail n s u) (m : Nat) :
    ksvListAttempts (n + m) s = ksvListAttempts m u := by
  induction n generalizing s with
  | zero => cases h; rw [Nat.zero_add]
  | succ n ih =>
    obtain ⟨t, first, later⟩ := h
    rw [Nat.succ_add, ksvListAttempts, first, ok_bind]
    exact ih later

/-- Fewer failed attempts than there are leave at least one more, which decides first. -/
theorem ksvListAttempts_next {n total : Nat} {s u : State} (left : n < total) (h : attemptsFail n s u) :
    ∃ m, ksvListAttempts total s = ksvListAttempts (m + 1) u := by
  obtain ⟨m, rfl⟩ := Nat.exists_eq_add_of_lt left
  exact ⟨m, ksvListAttempts_of_attemptsFail h (m + 1)⟩

theorem ksvListAttempts_succ_of_success {u t : State} (h : ksvListAttempt u = .ok (true, t)) (m : Nat) :
    ksvListAttempts (m + 1) u = .ok (true, t) := by
  rw [ksvListAttempts, h, ok_bind]
  rfl

theorem ksvListAttempts_succ_of_fault {u : State} {f : Fault} (h : ksvListAttempt u = .error f) (m : Nat) :
    ksvListAttempts (m + 1) u = .error f := by
  rw [ksvListAttempts, h, error_bind]

section
variable {s t : State}

theorem validateKsvList_of_success (h : ksvListAttempts s.params.literals.nRetry s = .ok (true, t)) :
    validateKsvList s = .ok (.authenticated, t) := by
  rw [validateKsvList, h]
  rfl

theorem validateKsvList_of_exhaustion (h : ksvListAttempts s.params.literals.nRetry s = .ok (false, t)) :
    validateKsvList s = .ok (.unauthenticated, t.countAuthFailed) := by
  rw [validateKsvList, h]
  rfl

theorem validateKsvList_of_fault {f : Fault} (h : ksvListAttempts s.params.literals.nRetry s = .error f) :
    validateKsvList s = .error f := by
  rw [validateKsvList, h, error_bind]

end

/-- Settles O55: the failed attempts before an attempt are skipped, and then that attempt, or their exhaustion, decides;
the parts of an attempt count failed reads only. -/
theorem validateKsvListEndsAtFirstSuccess : Obligations.ValidateKsvListEndsAtFirstSuccess := by
  refine ⟨rfl, fun s => ⟨rfl, fun n u t left failed success => ?_, fun u failed => ?_,
    fun n u f left failed fault => ?_, fun n u t ok failed ends => ?_⟩⟩
  · obtain ⟨m, next⟩ := ksvListAttempts_next left failed
    exact validateKsvList_of_success (next.trans (ksvListAttempts_succ_of_success success m))
  · exact validateKsvList_of_exhaustion (ksvListAttempts_of_attemptsFail failed 0)
  · obtain ⟨m, next⟩ := ksvListAttempts_next left failed
    exact validateKsvList_of_fault (next.trans (ksvListAttempts_succ_of_fault fault m))
  · have before := attemptsFail_asksCountingReads failed
    rcases ends with rfl | last
    · exact before
    · exact State.asksCountingReads_trans before (ksvListAttempt_asksCountingReads last)

end Sys2Proof.Machine
end

section
/-! The statements of 30_encoding.md about words that name an instruction: encoding and decoding undo each other. -/

namespace Sys2Proof.Machine

/-! ## Host commands: the word of an instruction decodes to it (30_encoding.md R96, R97) -/

theorem decodeCommand_setphy (u : Bool) :
    decodeCommand (commandWord 0x06#8 (if u then 1#64 else 0#64)) = .ok (.setphy u) := by
  cases u <;> rfl

theorem decode_encode_of_command {i : Instr} (hi : i.eventDirection = none) (d : Direction) :
    decode d (encode i) = .ok i := by
  cases i with
  | setphy u => exact decodeCommand_setphy u
  | setlanes n => exact decodeCommand_setlanes n
  | setkeysel n => exact decodeCommand_setkeysel n
  | enenc m => exact decodeCommand_enenc m
  | disenc m => exact decodeCommand_disenc m
  | cfginit | poll | reset | enable | disable | auth | isinprog | isauth | getenc | timeout | info | getver => rfl
  | txAuthenticate | txCheck | txDisable | txEnable | txLinkdown | txPhydown | txPhyup | txPoll | txTimeout
  | rxAuthenticate | rxCheck | rxDisable | rxEnable | rxPhydown | rxPhyup | rxPoll | rxUpdateRi => cases hi

theorem remainder_encode_of_command {i : Instr} (hi : i.eventDirection = none) (d : Direction) :
    (encode i).remainder d = [] := by
  cases i with
  | cfginit | poll | reset | enable | disable | setphy _ | setlanes _ | auth | isinprog | isauth | getenc | enenc _
  | disenc _ | setkeysel _ | timeout | info | getver => rfl
  | txAuthenticate | txCheck | txDisable | txEnable | txLinkdown | txPhydown | txPhyup | txPoll | txTimeout
  | rxAuthenticate | rxCheck | rxDisable | rxEnable | rxPhydown | rxPhyup | rxPoll | rxUpdateRi => cases hi

/-! ## Events: each row of a direction's table has the word of its number (30_encoding.md R93, R94) -/

/-- Every event of a direction has a row of that direction's table. -/
theorem exists_row_of_eventDirection {i : Instr} {d : Direction} (hi : i.eventDirection = some d) :
    ∃ n, (n, i) ∈ eventTable d := by
  cases i with
  | cfginit | poll | reset | enable | disable | setphy _ | setlanes _ | auth | isinprog | isauth | getenc | enenc _
  | disenc _ | setkeysel _ | timeout | info | getver => cases hi
  | txAuthenticate | txCheck | txDisable | txEnable | txLinkdown | txPhydown | txPhyup | txPoll | txTimeout
  | rxAuthenticate | rxCheck | rxDisable | rxEnable | rxPhydown | rxPhyup | rxPoll | rxUpdateRi =>
    cases hi
    simp [eventTable]

theorem wf_and_encode_of_row : ∀ (d : Direction), ∀ row ∈ eventTable d,
    row.2.wf d = true ∧ encode row.2 = eventWord row.1 := by
  intro d; cases d <;> decide

/-- The word of one event has no reserved bit, its row is the next, and nothing is left once it is taken. -/
theorem eventWord_of_row : ∀ (d : Direction), ∀ row ∈ eventTable d,
    (1#16 <<< row.1) &&& reservedEventMask d = 0#16 ∧ nextEvent d (1#16 <<< row.1) = some row ∧
      (eventWord row.1).remainder d = [] := by
  intro d; cases d <;> decide

theorem decodeEvent_of_next {d : Direction} {w : Half} {row : Nat × Instr} (legal : w &&& reservedEventMask d = 0#16)
    (next : nextEvent d w = some row) : decodeEvent d w = .ok row.2 := by
  simp [decodeEvent, legal, next]

/-- Settles O1: a command's fields are read back as they were put together; an event's word has one bit, its row's. -/
theorem encodedInstructionsDecodeBack : Obligations.EncodedInstructionsDecodeBack := by
  intro d i hwf
  cases hi : i.eventDirection with
  | none => exact ⟨decode_encode_of_command hi d, remainder_encode_of_command hi d⟩
  | some e =>
    have same : e = d := by simpa [Instr.wf, hi] using hwf
    subst same
    obtain ⟨n, mem⟩ := exists_row_of_eventDirection hi
    obtain ⟨legal, next, nothing⟩ := eventWord_of_row e _ mem
    rw [(wf_and_encode_of_row e _ mem).2]
    exact ⟨decodeEvent_of_next legal next, nothing⟩

/-! ## Legal command words (30_encoding.md R96 to R98) -/

/-- A command word is its two fields. -/
theorem commandWord_fields (w : CommandWord) : commandWord (opcodeField w) (operandField w) = w := by
  unfold commandWord opcodeField operandField
  ext i hi
  rw [BitVec.getElem_append]
  split
  · rw [BitVec.getElem_extractLsb', Nat.zero_add, BitVec.getLsbD_eq_getElem hi]
  · next h =>
    simp only [BitVec.getElem_extractLsb']
    rw [Nat.add_sub_cancel' (by omega), BitVec.getLsbD_eq_getElem hi]

section
variable {w : CommandWord} {n : Byte} {j : Instr}

theorem eq_commandWord {x : Wide} (op : (opcodeField w).toNat = n.toNat) (h : operandField w = x) :
    w = commandWord n x := by
  rw [← BitVec.eq_of_toNat_eq op, ← h, commandWord_fields]

theorem formatC0_eq_ok {i : Instr} (op : (opcodeField w).toNat = n.toNat)
    (h : formatC0 (opcodeField w) (operandField w) i = .ok j) : w = commandWord n 0#64 ∧ j = i := by
  unfold formatC0 at h
  split at h
  · next zero => exact ⟨eq_commandWord op zero, (Except.ok.inj h).symm⟩
  · cases h

/-- In format `CU` the operand field is its bit 0. -/
theorem formatCU_eq_ok {i : Bool → Instr} (op : (opcodeField w).toNat = n.toNat)
    (h : formatCU (opcodeField w) (operandField w) i = .ok j) :
    ∃ u, w = commandWord n (if u then 1#64 else 0#64) ∧ j = i u := by
  unfold formatCU at h
  split at h
  · next zero =>
    refine ⟨(operandField w).getLsbD 0, eq_commandWord op ?_, (Except.ok.inj h).symm⟩
    ext k hk
    cases k with
    | zero => cases hb : (operandField w).getLsbD 0 <;> simpa [BitVec.getLsbD_eq_getElem] using hb
    | succ k =>
      have high := congrArg (BitVec.getLsbD · k) zero
      simp only [BitVec.getLsbD_extractLsb', BitVec.getLsbD_zero, show k < 63 by omega, decide_true,
        Bool.true_and, Nat.add_comm 1 k] at high
      rw [← BitVec.getLsbD_eq_getElem hk, high]
      split <;> simp
  · cases h

/-- In format `CN` the operand field is its low byte. -/
theorem formatCN_eq_ok {i : Byte → Instr} (op : (opcodeField w).toNat = n.toNat)
    (h : formatCN (opcodeField w) (operandField w) i = .ok j) :
    ∃ m : Byte, w = commandWord n (m.setWidth 64) ∧ j = i m := by
  unfold formatCN at h
  split at h
  · next zero =>
    refine ⟨(operandField w).extractLsb' 0 8, eq_commandWord op ?_, (Except.ok.inj h).symm⟩
    ext k hk
    by_cases low : k < 8
    · simp [low, BitVec.getLsbD_eq_getElem hk]
    · have high := congrArg (BitVec.getLsbD · (k - 8)) zero
      simp only [BitVec.getLsbD_extractLsb', BitVec.getLsbD_zero, show k - 8 < 56 by omega, decide_true,
        Bool.true_and, show 8 + (k - 8) = k by omega] at high
      rw [← BitVec.getLsbD_eq_getElem hk, high]
      simp [low]
  · cases h

end

theorem encode_of_decodeCommand {w : CommandWord} {i : Instr} (h : decodeCommand w = .ok i) :
    encode i = .command w := by
  have c0 {n : Byte} {i' : Instr} (op : (opcodeField w).toNat = n.toNat)
      (enc : encode i' = .command (commandWord n 0#64))
      (h : formatC0 (opcodeField w) (operandField w) i' = .ok i) : encode i = .command w := by
    obtain ⟨hw, rfl⟩ := formatC0_eq_ok op h
    rw [enc, ← hw]
  unfold decodeCommand at h
  dsimp only at h
  split at h
  case h_1 op => exact c0 (n := 0x01#8) op rfl h
  case h_2 op => exact c0 (n := 0x02#8) op rfl h
  case h_3 op => exact c0 (n := 0x03#8) op rfl h
  case h_4 op => exact c0 (n := 0x04#8) op rfl h
  case h_5 op => exact c0 (n := 0x05#8) op rfl h
  case h_6 op => obtain ⟨u, hw, rfl⟩ := formatCU_eq_ok (n := 0x06#8) op h; rw [hw]; rfl
  case h_7 op => obtain ⟨m, hw, rfl⟩ := formatCN_eq_ok (n := 0x07#8) op h; rw [hw]; rfl
  case h_8 op => exact c0 (n := 0x08#8) op rfl h
  case h_9 op => exact c0 (n := 0x09#8) op rfl h
  case h_10 op => exact c0 (n := 0x0A#8) op rfl h
  case h_11 op => exact c0 (n := 0x0B#8) op rfl h
  case h_12 op => cases h; exact congrArg _ (eq_commandWord (n := 0x0C#8) op rfl).symm
  case h_13 op => cases h; exact congrArg _ (eq_commandWord (n := 0x0D#8) op rfl).symm
  case h_14 op => obtain ⟨m, hw, rfl⟩ := formatCN_eq_ok (n := 0x0E#8) op h; rw [hw]; rfl
  case h_15 op => exact c0 (n := 0x0F#8) op rfl h
  case h_16 op => exact c0 (n := 0x10#8) op rfl h
  case h_17 op => exact c0 (n := 0x11#8) op rfl h
  case h_18 => cases h

/-! ## Legal event words (30_encoding.md R93 to R95, 41_event_queue.md R153) -/

theorem eventTable_ascending : ∀ d : Direction, (eventTable d).Pairwise fun a b => a.1 < b.1 := by
  intro d; cases d <;> decide

/-- The numbers of a table go on from 1 without a gap. -/
theorem eventTable_gapless : ∀ d : Direction, ∀ row ∈ eventTable d, ∀ m, m < row.1 →
    m = 0 ∨ ∃ lower ∈ eventTable d, lower.1 = m := by
  intro d; cases d <;> decide

/-- The next event is a row whose bit is set, with no set bit among the rows below it. -/
theorem nextEvent_eq_some {d : Direction} {w : Half} {row : Nat × Instr} (h : nextEvent d w = some row) :
    row ∈ eventTable d ∧ w.getLsbD row.1 = true ∧
      ∀ lower ∈ eventTable d, lower.1 < row.1 → w.getLsbD lower.1 = false := by
  obtain ⟨set, before, after, table, clear⟩ := List.find?_eq_some_iff_append.1 h
  refine ⟨by rw [table]; simp, by simpa using set, fun lower mem lt => ?_⟩
  have ascending := eventTable_ascending d
  rw [table] at mem ascending
  obtain ⟨-, higher, -⟩ := List.pairwise_append.1 ascending
  rcases List.mem_append.1 mem with mem | mem
  · simpa using clear lower mem
  · rcases List.mem_cons.1 mem with rfl | mem
    · exact absurd lt (Nat.lt_irrefl _)
    · exact absurd lt (Nat.lt_asymm ((List.pairwise_cons.1 higher).1 lower mem))

theorem bit_zero_of_legal {d : Direction} {w : Half} (legal : w &&& reservedEventMask d = 0#16) :
    w.getLsbD 0 = false := by
  have bit := congrArg (BitVec.getLsbD · 0) legal
  cases d <;> simpa [reservedEventMask] using bit

/-- A word that decodes has no reserved bit and its instruction is its next event's. -/
theorem decodeEvent_eq_ok {d : Direction} {w : Half} {i : Instr} (h : decodeEvent d w = .ok i) :
    w &&& reservedEventMask d = 0#16 ∧ ∃ n, nextEvent d w = some (n, i) := by
  unfold decodeEvent at h
  split at h
  · cases h
  · next legal =>
    split at h
    · next row next => cases h; exact ⟨not_not.1 legal, row.1, next⟩
    · cases h

/-- Settles O2: a word that passes its format is put together from what was read; the first row found is the lowest
bit. -/
theorem legalWordsHaveOneEncoding : Obligations.LegalWordsHaveOneEncoding := by
  refine ⟨fun w i h => encode_of_decodeCommand h, fun d w i h => ?_⟩
  obtain ⟨legal, n, next⟩ := decodeEvent_eq_ok h
  obtain ⟨mem, set, lowest⟩ := nextEvent_eq_some next
  obtain ⟨wf, enc⟩ := wf_and_encode_of_row d _ mem
  refine ⟨wf, n, enc, set, fun m lt => ?_⟩
  rcases eventTable_gapless d _ mem m lt with rfl | ⟨lower, mem', rfl⟩
  · exact bit_zero_of_legal legal
  · exact lowest lower mem' lt

/-- Settles O4: the decoder computes each word. -/
theorem specWordsDecode : Obligations.SpecWordsDecode :=
  ⟨rfl, rfl, rfl, rfl, rfl, rfl, rfl, rfl, rfl, rfl⟩

end Sys2Proof.Machine
end

section
/-! The statements about the step, posts, interrupts and the drain (41_event_queue.md, 60_exceptions.md, 40_commands.md
R120 to R136, 70_reset_and_hazards.md section 1). -/

namespace Sys2Proof.Machine

/-! ## Masks (30_encoding.md R93 to R95) -/

/-- A value of one bit meets another exactly in that bit. -/
theorem and_one_shiftLeft_eq_zero_iff (x : Half) {n : Nat} (h : n < 16) :
    x &&& 1#16 <<< n = 0#16 ↔ x.getLsbD n = false := by
  constructor
  · intro zero
    simpa [h] using congrArg (BitVec.getLsbD · n) zero
  · intro clear
    ext i hi
    by_cases same : i = n
    · subst same; simp [← BitVec.getLsbD_eq_getElem hi, clear]
    · have : ¬ (i - n = 0 ∧ n ≤ i) := by omega
      by_cases le : i < n
      · simp [le]
      · have : i - n ≠ 0 := by omega
        simp [le, this]

theorem TxEvent.number_lt (e : TxEvent) : e.number < 16 := by cases e <;> decide

theorem RxEvent.number_lt (e : RxEvent) : e.number < 16 := by cases e <;> decide

/-- Clearing and setting bits outside a mask does not show in it. -/
theorem and_of_outside {p clear set mask : Half} (hc : clear &&& mask = 0#16) (hs : set &&& mask = 0#16) :
    ((p &&& ~~~clear) ||| set) &&& mask = p &&& mask := by
  ext i hi
  have c : (clear &&& mask)[i] = false := by rw [hc]; simp
  have s : (set &&& mask)[i] = false := by rw [hs]; simp
  simp only [BitVec.getElem_and] at c s
  simp only [BitVec.getElem_and, BitVec.getElem_or, BitVec.getElem_not]
  cases hm : mask[i]
  · simp
  · simp only [hm, Bool.and_true] at c s
    simp [c, s]

theorem postedTo_tx_reserved (p : Half) (e : TxEvent) :
    postedTo p (.tx e) &&& reservedEventMask .tx = p &&& reservedEventMask .tx := by
  apply and_of_outside <;> cases e <;> decide

theorem postedTo_rx_reserved (p : Half) (e : RxEvent) :
    postedTo p (.rx e) &&& reservedEventMask .rx = p &&& reservedEventMask .rx := by
  apply and_of_outside <;> cases e <;> decide

/-- Setting bits clears none. -/
theorem or_and_cancel (p m : Half) : (p ||| m) &&& p = p := by
  ext i hi
  simp only [BitVec.getElem_and, BitVec.getElem_or]
  cases p[i] <;> simp

/-! ## Posts (41_event_queue.md R151) -/

theorem State.postFor_tx {s : State} (d : s.params.direction = .tx) (t : TxEvent) (r : RxEvent) :
    s.postFor t r = s.post (.tx t) := by
  simp [State.postFor, d]

theorem State.postFor_rx {s : State} (d : s.params.direction = .rx) (t : TxEvent) (r : RxEvent) :
    s.postFor t r = s.post (.rx r) := by
  simp [State.postFor, d]

theorem State.post_unsuppressed {e : Event} (h : e.suppressed = 0#16) (s : State) :
    s.post e = { s with pendingEvents := s.pendingEvents ||| e.mask } := by
  rw [State.post_eq, postedTo_unsuppressed h]
  rfl

/-- A command's post sets no reserved bit of the direction it is in (30_encoding.md R95). -/
theorem State.postFor_reserved (s : State) (t : TxEvent) (r : RxEvent) :
    (s.postFor t r).pendingEvents &&& reservedEventMask s.params.direction =
      s.pendingEvents &&& reservedEventMask s.params.direction := by
  cases d : s.params.direction with
  | tx => rw [s.postFor_tx d]; exact postedTo_tx_reserved _ t
  | rx => rw [s.postFor_rx d]; exact postedTo_rx_reserved _ r

@[simp] theorem State.postFor_params (s : State) (t : TxEvent) (r : RxEvent) : (s.postFor t r).params = s.params := by
  obtain ⟨p, e⟩ := s.postFor_eq t r; rw [e]; rfl

@[simp] theorem State.postFor_arrivals (s : State) (t : TxEvent) (r : RxEvent) :
    (s.postFor t r).arrivals = s.arrivals := by
  obtain ⟨p, e⟩ := s.postFor_eq t r; rw [e]; rfl

/-- Settles O8: each post is its table row. -/
theorem postSetsItsBitAndSuppresses : Obligations.PostSetsItsBitAndSuppresses := by
  refine ⟨fun _ _ => rfl, fun p e => ?_, fun p e => ?_, by decide, by decide, by decide, by decide, by decide,
    by decide⟩
  · cases e <;> rfl
  · cases e <;> rfl

/-! ## Interrupts (60_exceptions.md R326, R331, R334) -/

/-- A registered callback posts its event. -/
theorem State.callback_of_some {s : State} {r : Option Event} {e : Event} (h : r = some e)
    (quiet : e.suppressed = 0#16) :
    s.callback r = { s with pendingEvents := s.pendingEvents ||| e.mask } := by
  subst h
  exact s.post_unsuppressed quiet

theorem State.callback_of_none {s : State} {r : Option Event} (h : r = none) : s.callback r = s := by
  subst h; rfl

theorem State.expire_of_unarmed {s : State} (h : s.timer = none) : s.expire = s := by
  simp [State.expire, h]

theorem State.expire_of_armed {s : State} (armed : s.timer ≠ none) :
    s.expire = if s.ready && Params.directionPresent s.params then (s.setTimer none).postTimeout
      else s.setTimer none := by
  obtain ⟨ms, ht⟩ := Option.ne_none_iff_exists'.1 armed
  simp [State.expire, ht]

/-- On a Tx that accepts commands the expiry of an armed timer posts `TIMEOUT`. -/
theorem State.expire_tx {s : State} (ha : s.accepts) (d : s.params.direction = .tx) (armed : s.timer ≠ none) :
    s.expire = { s with pendingEvents := s.pendingEvents ||| 0x0200#16, timer := none } := by
  have posts : (s.setTimer none).postTimeout = (s.setTimer none).post (.tx .timeout) := by
    simp [State.postTimeout, d]
  obtain ⟨ready, present⟩ := ha
  rw [State.expire_of_armed armed, if_pos (by simp [ready, present]), posts, State.post_unsuppressed rfl]
  rfl

/-- Unarmed, on an Rx, or where no command is accepted, an expiry disarms at most. -/
theorem State.expire_quiet {s : State} (h : s.timer = none ∨ s.params.direction = .rx ∨ ¬ s.accepts) :
    s.expire = { s with timer := none } := by
  by_cases ht : s.timer = none
  · rw [State.expire_of_unarmed ht, ← ht]
  · rw [State.expire_of_armed ht]
    by_cases ha : s.accepts
    · have d := (h.resolve_left ht).resolve_right (not_not.2 ha)
      rw [if_pos (by simpa [State.accepts] using ha)]
      simp [State.postTimeout, d, State.setTimer]
    · rw [if_neg (by simpa [State.accepts] using ha)]
      rfl

/-- An expiry posts or is quiet. -/
theorem State.expire_posts_or_quiet (s : State) :
    (s.accepts ∧ s.params.direction = .tx ∧ s.timer ≠ none) ∨
      (s.timer = none ∨ s.params.direction = .rx ∨ ¬ s.accepts) := by
  cases d : s.params.direction with
  | rx => exact .inr (.inr (.inl rfl))
  | tx =>
    by_cases ha : s.accepts
    · by_cases ht : s.timer = none
      · exact .inr (.inl ht)
      · exact .inl ⟨ha, rfl, ht⟩
    · exact .inr (.inr (.inr ha))

/-- What the sound callbacks post suppresses nothing (41_event_queue.md R152). -/
theorem State.callbacksSound_unsuppressed {s : State} (h : s.callbacksSound) {e : Event}
    (he : s.callbacks.linkFail = some e ∨ s.callbacks.riUpdate = some e ∨ s.callbacks.portAuth = some e) :
    e.suppressed = 0#16 := by
  cases d : s.params.direction <;> simp only [State.callbacksSound, d] at h <;> obtain ⟨link, ri, port⟩ := h <;>
    rcases he with he | he | he
  · rw [link e he]; rfl
  · rw [ri e he]; rfl
  · rw [port e he]; rfl
  · rw [link e he]; rfl
  · rw [ri e he]; rfl
  · rw [port e he]; rfl

/-- A callback that suppresses nothing, if registered at all, clears nothing. -/
theorem State.callback_grows {s : State} {r : Option Event} (h : ∀ e, r = some e → e.suppressed = 0#16) :
    ∃ p, s.callback r = { s with pendingEvents := p } ∧ p &&& s.pendingEvents = s.pendingEvents := by
  cases r with
  | none => exact ⟨s.pendingEvents, rfl, BitVec.and_self⟩
  | some e => exact ⟨_, State.callback_of_some rfl (h e rfl), or_and_cancel _ _⟩

theorem State.expire_grows (s : State) :
    ∃ p t, s.expire = { s with pendingEvents := p, timer := t } ∧ p &&& s.pendingEvents = s.pendingEvents ∧
      (t = s.timer ∨ t = none) := by
  rcases s.expire_posts_or_quiet with ⟨ha, d, armed⟩ | quiet
  · exact ⟨_, none, State.expire_tx ha d armed, or_and_cancel _ _, .inr rfl⟩
  · exact ⟨s.pendingEvents, none, State.expire_quiet quiet, BitVec.and_self, .inr rfl⟩

/-- Where the callbacks are sound an interrupt sets bits and may disarm the timer. -/
theorem State.takeInterrupt_grows {s : State} (h : s.callbacksSound) (i : Interrupt) :
    ∃ p t, s.takeInterrupt i = { s with pendingEvents := p, timer := t } ∧
      p &&& s.pendingEvents = s.pendingEvents ∧ (t = s.timer ∨ t = none) := by
  have posted {r} (hr : ∀ e, r = some e → e.suppressed = 0#16) (hi : s.takeInterrupt i = s.callback r) :
      ∃ p t, s.takeInterrupt i = { s with pendingEvents := p, timer := t } ∧
        p &&& s.pendingEvents = s.pendingEvents ∧ (t = s.timer ∨ t = none) := by
    obtain ⟨p, e, grows⟩ := State.callback_grows (s := s) hr
    exact ⟨p, s.timer, hi.trans e, grows, .inl rfl⟩
  cases i with
  | portReauth => exact posted (fun e he => State.callbacksSound_unsuppressed h (.inr (.inr he))) rfl
  | cipherRiUpdate => exact posted (fun e he => State.callbacksSound_unsuppressed h (.inr (.inl he))) rfl
  | cipherLinkFail => exact posted (fun e he => State.callbacksSound_unsuppressed h (.inl he)) rfl
  | timerExpiry => exact s.expire_grows

/-- Settles O6: a callback posts the event it is registered with, and none of these events suppresses another. -/
theorem interruptSourcesOnlyPost : Obligations.InterruptSourcesOnlyPost := by
  refine ⟨fun s d cb => ?_, fun s d cb => ?_, fun s h => State.callback_of_none h, fun s h => State.callback_of_none h,
    fun s h => State.callback_of_none h, fun s h => State.expire_of_unarmed h, fun s h => State.expire_quiet (.inr h),
    fun s i h => State.takeInterrupt_grows h i⟩
  · exact ⟨State.callback_of_some (e := .tx .authenticate) (by rw [cb]; rfl) rfl,
      State.callback_of_some (e := .tx .check) (by rw [cb]; rfl) rfl,
      State.callback_of_some (e := .tx .linkDown) (by rw [cb]; rfl) rfl, fun ha armed => State.expire_tx ha d armed⟩
  · exact ⟨State.callback_of_some (e := .rx .authenticate) (by rw [cb]; rfl) rfl,
      State.callback_of_some (e := .rx .check) (by rw [cb]; rfl) rfl,
      State.callback_of_some (e := .rx .updateRi) (by rw [cb]; rfl) rfl⟩

/-! ## The step -/

theorem step_of_decode_ok {s : State} {f : FetchWord} {rest : List Input} {i : Instr}
    (hs : s.inputs = .fetch f :: rest) (hd : decode s.params.direction f = .ok i) :
    step s = exec i { s with inputs := (f.remainder s.params.direction).map Input.fetch ++ rest } := by
  unfold step
  simp only [hs, hd]
  rfl

theorem step_of_decode_error {s : State} {f : FetchWord} {rest : List Input} {e : DecodeError}
    (hs : s.inputs = .fetch f :: rest) (hd : decode s.params.direction f = .error e) :
    step s = rejectedWord e { s with inputs := rest } := by
  unfold step
  simp only [hs, hd]
  rfl

/-- Settles O5: the three shapes of the list of inputs. -/
theorem stepRunsDecodedInstruction : Obligations.StepRunsDecodedInstruction := by
  refine ⟨fun s f rest i hs hd _ => step_of_decode_ok hs hd, fun s i rest hs => ?_, fun s hs => ?_⟩
  · unfold step
    simp only [hs]
    rfl
  · unfold step
    simp only [hs]

/-! ## The drain (41_event_queue.md R153) -/

theorem drain_of_undisturbed {s : State} (quiet : s.undisturbed) :
    drain s = dispatchSnapshot s.pendingEvents (s.setPending 0#16) := by
  rw [drain, State.arrive_undisturbed quiet]

theorem drain_reserved {s : State} (quiet : s.undisturbed)
    (bad : s.pendingEvents &&& reservedEventMask s.params.direction ≠ 0#16) : drain s = .error .reservedEvent := by
  rw [drain_of_undisturbed quiet, dispatchSnapshot]
  exact if_neg bad

/-- With no interrupt to come, an event list is dispatched in its order, the events not in the snapshot left out. -/
theorem txDrain_eq_foldlM (snap : Half) (l : List TxEvent) {s : State} (quiet : s.undisturbed) :
    txDrain snap l s = (l.filter fun e => snap.getLsbD e.number).foldlM (fun t e => txDispatch e t) s := by
  induction l generalizing s with
  | nil => rfl
  | cons e l ih =>
    rw [txDrain, TxEvent.mask, State.arrive_undisturbed quiet]
    by_cases clear : snap.getLsbD e.number = false
    · rw [if_pos ((and_one_shiftLeft_eq_zero_iff _ e.number_lt).2 clear), List.filter_cons_of_neg (by simp [clear])]
      exact ih quiet
    · rw [if_neg fun zero => clear ((and_one_shiftLeft_eq_zero_iff _ e.number_lt).1 zero),
        List.filter_cons_of_pos (by simpa using clear), List.foldlM_cons]
      cases run : txDispatch e s with
      | error f => rfl
      | ok t => exact ih ((State.txEvolves_arrivals (txDispatch_evolves run)).trans quiet)

theorem rxDrain_eq_foldlM (snap : Half) (l : List RxEvent) {s : State} (quiet : s.undisturbed) :
    rxDrain snap l s = (l.filter fun e => snap.getLsbD e.number).foldlM (fun t e => rxDispatch e t) s := by
  induction l generalizing s with
  | nil => rfl
  | cons e l ih =>
    rw [rxDrain, RxEvent.mask, State.arrive_undisturbed quiet]
    by_cases clear : snap.getLsbD e.number = false
    · rw [if_pos ((and_one_shiftLeft_eq_zero_iff _ e.number_lt).2 clear), List.filter_cons_of_neg (by simp [clear])]
      exact ih quiet
    · rw [if_neg fun zero => clear ((and_one_shiftLeft_eq_zero_iff _ e.number_lt).1 zero),
        List.filter_cons_of_pos (by simpa using clear), List.foldlM_cons]
      cases run : rxDispatch e s with
      | error f => rfl
      | ok t => exact ih ((State.rxEvolves_arrivals (rxDispatch_evolves run)).trans quiet)

theorem drain_tx {s : State} (d : s.params.direction = .tx) (quiet : s.undisturbed) (legal : s.pendingLegal) :
    drain s = (txEventOrder.filter fun e => s.pendingEvents.getLsbD e.number).foldlM
      (fun t e => txDispatch e t) (s.setPending 0#16) := by
  rw [drain_of_undisturbed quiet, dispatchSnapshot, if_pos (by exact legal)]
  simp only [State.setPending_params, d]
  exact txDrain_eq_foldlM _ _ quiet

theorem drain_rx {s : State} (d : s.params.direction = .rx) (quiet : s.undisturbed) (legal : s.pendingLegal) :
    drain s = (rxEventOrder.filter fun e => s.pendingEvents.getLsbD e.number).foldlM
      (fun t e => rxDispatch e t) (s.setPending 0#16) := by
  rw [drain_of_undisturbed quiet, dispatchSnapshot, if_pos (by exact legal)]
  simp only [State.setPending_params, d]
  exact rxDrain_eq_foldlM _ _ quiet

/-- Settles O9: skipping the events that are not in the snapshot is filtering them out. -/
theorem drainDispatchesInAscendingOrder : Obligations.DrainDispatchesInAscendingOrder :=
  ⟨rfl, rfl, fun _ quiet legal => ⟨fun d => drain_tx d quiet legal, fun d => drain_rx d quiet legal⟩⟩

/-! ## The commands that drain (40_commands.md R122 to R128) -/

theorem finish_succeed (r : Except Fault State) : finish (succeed r) = ended r := by
  cases r <;> rfl

/-- What a command that posts and drains does, once the frame lets it through. -/
theorem commandFrame_drain {s : State} (ha : s.accepts) (t : TxEvent) (r : RxEvent) :
    commandFrame (fun s => succeed (drain (s.postFor t r))) s = ended (drain (s.postFor t r)) := by
  rw [commandFrame_of_accepts ha, finish_succeed]

section
variable {s : State} (ha : s.accepts)
include ha

theorem exec_poll : exec .poll s = ended (drain (s.postFor .poll .poll)) := commandFrame_drain ha _ _

theorem exec_enable : exec .enable s = ended (drain (s.postFor .enable .enable)) := commandFrame_drain ha _ _

theorem exec_disable : exec .disable s = ended (drain (s.postFor .disable .disable)) := commandFrame_drain ha _ _

theorem exec_setphy_up : exec (.setphy true) s = ended (drain (s.postFor .phyUp .phyUp)) := commandFrame_drain ha _ _

theorem exec_setphy_down : exec (.setphy false) s = ended (drain (s.postFor .phyDown .phyDown)) :=
  commandFrame_drain ha _ _

theorem exec_auth : exec .auth s = ended (drain (s.postFor .authenticate .authenticate)) := commandFrame_drain ha _ _

theorem exec_reset :
    exec .reset s = ended (drain (s.postFor .disable .disable) >>= fun t => drain (t.postFor .enable .enable)) := by
  have body : resetBody s =
      succeed (drain (s.postFor .disable .disable) >>= fun t => drain (t.postFor .enable .enable)) := by
    rw [resetBody, disableBody]
    cases drain (s.postFor .disable .disable) <;> rfl
  rw [← finish_succeed, ← body]
  exact commandFrame_of_accepts ha

/-- A drain that finds a reserved bit stops before any dispatch (60_exceptions.md R325). -/
theorem exec_of_drain_reserved (quiet : s.undisturbed)
    (bad : s.pendingEvents &&& reservedEventMask s.params.direction ≠ 0#16) {i : Instr}
    (hi : i = .poll ∨ i = .reset ∨ i = .enable ∨ i = .disable ∨ i = .auth ∨ ∃ u, i = .setphy u) :
    exec i s = .fault .reservedEvent := by
  have stops (t : TxEvent) (r : RxEvent) : drain (s.postFor t r) = .error .reservedEvent := by
    refine drain_reserved ?_ ?_
    · rw [State.undisturbed, State.postFor_arrivals]; exact quiet
    · rw [State.postFor_params, State.postFor_reserved]; exact bad
  rcases hi with rfl | rfl | rfl | rfl | rfl | ⟨_ | _, rfl⟩
  · rw [exec_poll ha, stops]; rfl
  · rw [exec_reset ha, stops]; rfl
  · rw [exec_enable ha, stops]; rfl
  · rw [exec_disable ha, stops]; rfl
  · rw [exec_auth ha, stops]; rfl
  · rw [exec_setphy_down ha, stops]; rfl
  · rw [exec_setphy_up ha, stops]; rfl

end

/-- Settles O11: the post of a command is the one of the direction it is in. -/
theorem lifeCycleCommandsPostThenDrain : Obligations.LifeCycleCommandsPostThenDrain := by
  refine fun s ha => ⟨fun d => ?_, fun d => ?_⟩
  · simp only [exec_poll ha, exec_enable ha, exec_disable ha, exec_setphy_up ha, exec_setphy_down ha, exec_auth ha,
      State.postFor_tx d, and_self]
  · simp only [exec_poll ha, exec_enable ha, exec_disable ha, exec_setphy_up ha, exec_setphy_down ha, exec_auth ha,
      State.postFor_rx d, and_self]

/-- Settles O7: posts leave the reserved bits alone, so a drain and a word find the ones that were there. -/
theorem reservedEventBitsFault : Obligations.ReservedEventBitsFault := by
  refine ⟨postedTo_tx_reserved, postedTo_rx_reserved, fun s i hi ha quiet bad => ?_, fun s w rest bad hs => ?_⟩
  · refine exec_of_drain_reserved ha quiet ?_ hi
    cases d : s.params.direction <;> rw [d] at bad <;> exact bad
  · have reserved : w &&& reservedEventMask s.params.direction ≠ 0#16 := by
      cases d : s.params.direction <;> rw [d] at bad <;> exact bad
    have error : decode s.params.direction (.events w) = .error .reservedEventBit := if_pos reserved
    rw [step_of_decode_error hs error]
    rfl

/-! ## `TIMEOUT` and `INFO` (40_commands.md R135, R136) -/

/-- Settles O22: the body is one post, and an expiry at an interruption point is the same post. -/
theorem timeoutOnlyPosts : Obligations.TimeoutOnlyPosts := by
  have exec_timeout (s : State) : exec .timeout s = commandFrame (fun s => .ok (.success, s.postTimeout)) s := rfl
  refine ⟨fun s ha d => ?_, fun s ha d => ?_, fun s later ha d armed due => ?_⟩
  · rw [exec_timeout, commandFrame_of_ok ha rfl, State.postTimeout]
    simp only [d]
    rw [State.post_unsuppressed rfl]
    rfl
  · rw [exec_timeout, commandFrame_of_ok ha rfl, State.postTimeout]
    simp only [d]
    rfl
  · rw [State.arrive, due]
    exact State.expire_tx (s := s.setArrivals later) ha d armed

/-- Settles O21: the report lists the registers of one direction. -/
theorem infoAnswersText : Obligations.InfoAnswersText := by
  intro s ha
  have runs : exec .info s =
      .next ((s.takeAnswer s.answers).setResult (.text (Config.infoText s.draws (infoReport s)))) := by
    change execInfo s = _
    rw [execInfo, commandFrame_of_accepts ha]
    rfl
  rw [runs]
  cases d : s.params.direction <;> simp only [infoReport, d] <;> rfl

/-! ## `CFGINIT` and the state after reset (70_reset_and_hazards.md R350 to R352) -/

/-- `s` with other registers and other interruption points: what no interrupt looks at. -/
def State.elsewhere (s : State) (r : TxRegs) (q : RxRegs) (up : Bool) (l : List (List Interrupt)) : State :=
  { s with tx := r, rx := q, phyUp := up, arrivals := l }

theorem State.takeInterrupt_elsewhere (s : State) (r : TxRegs) (q : RxRegs) (up : Bool) (l : List (List Interrupt))
    (i : Interrupt) : (s.elsewhere r q up l).takeInterrupt i = (s.takeInterrupt i).elsewhere r q up l := by
  have posted (o : Option Event) : (s.elsewhere r q up l).callback o = (s.callback o).elsewhere r q up l := by
    cases o <;> rfl
  cases i with
  | portReauth | cipherRiUpdate | cipherLinkFail => exact posted _
  | timerExpiry =>
    rw [State.takeInterrupt, State.takeInterrupt]
    rcases s.expire_posts_or_quiet with ⟨ha, d, armed⟩ | quiet
    · rw [State.expire_tx ha d armed, State.expire_tx (s := s.elsewhere r q up l) ha d armed]
      rfl
    · rw [State.expire_quiet quiet, State.expire_quiet (s := s.elsewhere r q up l) quiet]
      rfl

theorem State.foldInterrupts_elsewhere (now : List Interrupt) (s : State) (r : TxRegs) (q : RxRegs) (up : Bool)
    (l : List (List Interrupt)) :
    now.foldl State.takeInterrupt (s.elsewhere r q up l) = (now.foldl State.takeInterrupt s).elsewhere r q up l := by
  induction now generalizing s with
  | nil => rfl
  | cons i now ih => rw [List.foldl_cons, List.foldl_cons, State.takeInterrupt_elsewhere, ih]

theorem resetRegisters_elsewhere (s : State) (l : List (List Interrupt)) :
    ∃ r q, (resetRegisters s).setArrivals l =
      State.elsewhere { s with pendingEvents := 0#16 } r q s.params.phyUpAtReset l := by
  cases d : s.params.direction with
  | tx => exact ⟨.reset, s.rx, by simp only [resetRegisters, d]; rfl⟩
  | rx => exact ⟨s.tx, .reset, by simp only [resetRegisters, d]; rfl⟩

/-- The interruption point inside `CFGINIT` makes of `PendingEvents` and the timer what its interrupts make of them
after the clearing (41_event_queue.md R155). -/
theorem resetRegisters_arrive {s : State} {now : List Interrupt} {later : List (List Interrupt)}
    (due : s.arrivals = now :: later ∨ (s.arrivals = [] ∧ now = [] ∧ later = [])) :
    (resetRegisters s).arrive.pendingEvents =
        (now.foldl State.takeInterrupt { s with pendingEvents := 0#16 }).pendingEvents ∧
      (resetRegisters s).arrive.timer = (now.foldl State.takeInterrupt { s with pendingEvents := 0#16 }).timer ∧
      (resetRegisters s).arrive.arrivals = later := by
  have points : (resetRegisters s).arrivals = s.arrivals := by
    cases d : s.params.direction <;> simp [resetRegisters, d]
  obtain ⟨r, q, e⟩ := resetRegisters_elsewhere s later
  have arrives : (resetRegisters s).arrive = now.foldl State.takeInterrupt ((resetRegisters s).setArrivals later) := by
    rcases due with due | ⟨due, rfl, rfl⟩
    · rw [State.arrive, points, due]
    · rw [State.arrive_undisturbed (points.trans due), ← due, ← points]
      rfl
  rw [arrives, e, State.foldInterrupts_elsewhere]
  exact ⟨rfl, rfl, rfl⟩

/-- Settles O13: what the interruption point leaves of `PendingEvents` and the timer is all that `CFGINIT` does not
fix. -/
theorem cfginitResetsEveryRegister : Obligations.CfginitResetsEveryRegister := by
  refine ⟨rfl, fun s absent => exec_cfginit_absent absent, fun s t now later interrupted due hi => ⟨fun none => ?_,
    fun d present ht => ?_, fun d present ht => ?_⟩⟩
  · subst none; subst hi; exact ⟨rfl, rfl⟩
  all_goals
    obtain ⟨pending, timer, points⟩ := resetRegisters_arrive due
    rw [← hi] at pending timer
    rw [exec_cfginit_present (by simp [Params.directionPresent, d, present]), ht]
  · obtain ⟨p, tm, l, e, -, init⟩ := initialise_tx d
    rw [e] at pending timer points
    simp only [State.setPending_pendingEvents, State.setPending_timer, State.setTimer_timer, State.setPending_arrivals,
      State.setTimer_arrivals, State.setArrivals_arrivals] at pending timer points
    rw [init, pending, timer, points, txDisabledRequests, ← List.append_assoc]
    rfl
  · obtain ⟨p, tm, l, e, -, init⟩ := initialise_rx d
    rw [e] at pending timer points
    simp only [State.setPending_pendingEvents, State.setPending_timer, State.setTimer_timer, State.setPending_arrivals,
      State.setTimer_arrivals, State.setArrivals_arrivals] at pending timer points
    rw [init, pending, timer, points]
    rfl

/-- Settles O17: `CFGINIT` forgets the callbacks, and a routine not registered cannot be called. -/
theorem cfginitLeavesNoCallback : Obligations.CfginitLeavesNoCallback := by
  intro s t present h
  rw [exec_cfginit_present present] at h
  cases h
  refine ⟨rfl, fun i other => ?_⟩
  cases i with
  | portReauth | cipherRiUpdate | cipherLinkFail => rfl
  | timerExpiry => exact absurd rfl other

/-- Settles O59: every register holds its reset value. -/
theorem resetStateIsSound : Obligations.ResetStateIsSound := by
  refine ⟨⟨rfl, ⟨nofun, nofun, nofun⟩, by decide, .disabled, ⟨rfl, rfl, rfl⟩, TxStats.zero_fits _, ?_, fun _ unarmed =>
    absurd rfl unarmed⟩, rfl⟩
  exact ⟨fun nonzero => absurd rfl nonzero, nofun⟩

/-! ## `EncryptionMap` (10_state.md R26) -/

theorem State.takeInterrupt_tx (s : State) (i : Interrupt) : (s.takeInterrupt i).tx = s.tx := by
  obtain ⟨p, t, e, -⟩ := s.takeInterrupt_eq i; rw [e]; rfl

theorem kept_encryptionMap (m : Wide) : Kept fun s => s.tx.encryptionMap = m where
  result _ _ h := h
  inputs _ _ h := h
  arrivals _ _ h := h
  interrupt s i h := by rw [s.takeInterrupt_tx]; exact h
  post s t r h := by obtain ⟨p, e⟩ := s.postFor_eq t r; rw [e]; exact h
  timeout s h := by obtain ⟨p, e⟩ := s.postTimeout_eq; rw [e]; exact h
  clear _ h := h
  dispatchTx s t e _ run h := by rw [State.txEvolves_map (txDispatch_evolves run)]; exact h
  dispatchRx s t e _ run h := by rw [State.rxEvolves_tx (rxDispatch_evolves run)]; exact h
  lanes _ _ h := h
  keys _ _ h := h
  info _ h := h
  getenc s _ h := by rw [State.asks_tx s.asks_cipherGetEncryption]; exact h

/-- Settles O16: no part of a step but the three bodies writes the map. -/
theorem encryptionMapHasTwoWriters : Obligations.EncryptionMapHasTwoWriters :=
  ⟨fun s _ _ h noEnenc noDisenc noInit => (kept_encryptionMap s.tx.encryptionMap).exec h (fun e => absurd e noInit)
      (fun m _ _ e => absurd e (noEnenc m)) (fun m _ _ e => absurd e (noDisenc m)) rfl,
    State.takeInterrupt_tx⟩

end Sys2Proof.Machine
end

section
/-! The invariant of every step (`State.sound`), and what an Rx keeps to (44_rx_events.md R265). -/

namespace Sys2Proof.Machine

/-! ## `State.sound` by direction -/

theorem State.sound_tx_iff {s : State} (d : s.params.direction = .tx) :
    s.sound ↔ s.pendingLegal ∧ s.callbacksSound ∧ s.txSound := by
  simp only [State.sound, d]

theorem State.sound_rx_iff {s : State} (d : s.params.direction = .rx) :
    s.sound ↔ s.pendingLegal ∧ s.callbacksSound ∧ s.rxSound := by
  simp only [State.sound, d]

/-- A sound state stays sound when only bits that are not reserved change in `PendingEvents` and the timer is left or
disarmed. -/
theorem State.sound_of_pending_timer {s t : State} (h : s.sound) {p : Half} {tm : Option Nat}
    (e : t = (s.setTimer tm).setPending p)
    (legal : p &&& reservedEventMask s.params.direction = s.pendingEvents &&& reservedEventMask s.params.direction)
    (timer : tm = s.timer ∨ tm = none) : t.sound := by
  subst e
  cases d : s.params.direction with
  | tx =>
    obtain ⟨pending, callbacks, literal, st, rests, fits, an, armed⟩ := (State.sound_tx_iff d).1 h
    refine (State.sound_tx_iff (by exact d)).2 ⟨legal.trans pending, callbacks, literal, st, rests, fits, an, ?_⟩
    rcases timer with rfl | rfl
    · exact armed
    · exact fun _ unarmed => absurd rfl unarmed
  | rx =>
    obtain ⟨pending, callbacks, rests, fits, unarmed⟩ := (State.sound_rx_iff d).1 h
    refine (State.sound_rx_iff (by exact d)).2 ⟨legal.trans pending, callbacks, rests, fits, ?_⟩
    rcases timer with rfl | rfl
    · exact unarmed
    · rfl

/-! ## Interrupts and posts -/

theorem or_mask_reserved (p : Half) {e : TxEvent} (quiet : (Event.tx e).suppressed = 0#16) :
    (p ||| e.mask) &&& reservedEventMask .tx = p &&& reservedEventMask .tx := by
  rw [← postedTo_tx_reserved p e, postedTo_unsuppressed quiet]
  rfl

/-- What a sound callback posts is an event of the direction: it sets no reserved bit. -/
theorem State.callbacksSound_reserved {s : State} (h : s.callbacksSound) {e : Event}
    (he : s.callbacks.linkFail = some e ∨ s.callbacks.riUpdate = some e ∨ s.callbacks.portAuth = some e) (p : Half) :
    postedTo p e &&& reservedEventMask s.params.direction = p &&& reservedEventMask s.params.direction := by
  cases d : s.params.direction <;> simp only [State.callbacksSound, d] at h <;> obtain ⟨link, ri, port⟩ := h <;>
    rcases he with he | he | he
  · rw [link e he]; exact postedTo_tx_reserved _ _
  · rw [ri e he]; exact postedTo_tx_reserved _ _
  · rw [port e he]; exact postedTo_tx_reserved _ _
  · rw [link e he]; exact postedTo_rx_reserved _ _
  · rw [ri e he]; exact postedTo_rx_reserved _ _
  · rw [port e he]; exact postedTo_rx_reserved _ _

theorem State.takeInterrupt_reserved {s : State} (h : s.callbacksSound) (i : Interrupt) :
    (s.takeInterrupt i).pendingEvents &&& reservedEventMask s.params.direction =
      s.pendingEvents &&& reservedEventMask s.params.direction := by
  have posted {r} (hr : ∀ e, r = some e → s.callbacks.linkFail = some e ∨ s.callbacks.riUpdate = some e ∨
      s.callbacks.portAuth = some e) : (s.callback r).pendingEvents &&& reservedEventMask s.params.direction =
        s.pendingEvents &&& reservedEventMask s.params.direction := by
    cases r with
    | none => rfl
    | some e => exact State.callbacksSound_reserved h (hr e rfl) _
  cases i with
  | portReauth => exact posted fun _ he => .inr (.inr he)
  | cipherRiUpdate => exact posted fun _ he => .inr (.inl he)
  | cipherLinkFail => exact posted fun _ he => .inl he
  | timerExpiry =>
    rw [State.takeInterrupt]
    rcases s.expire_posts_or_quiet with ⟨ha, d, armed⟩ | quiet
    · rw [State.expire_tx ha d armed, d]
      exact or_mask_reserved _ (e := .timeout) rfl
    · rw [State.expire_quiet quiet]

theorem State.sound_takeInterrupt {s : State} (h : s.sound) (i : Interrupt) : (s.takeInterrupt i).sound := by
  obtain ⟨p, tm, e, timer⟩ := s.takeInterrupt_eq i
  have reserved := State.takeInterrupt_reserved h.2.1 i
  rw [e] at reserved
  exact State.sound_of_pending_timer h e reserved timer

theorem State.sound_postFor {s : State} (h : s.sound) (t : TxEvent) (r : RxEvent) : (s.postFor t r).sound := by
  obtain ⟨p, e⟩ := s.postFor_eq t r
  have reserved := s.postFor_reserved t r
  rw [e] at reserved
  exact State.sound_of_pending_timer h (e.trans rfl) reserved (.inl rfl)

theorem State.sound_postTimeout {s : State} (h : s.sound) : s.postTimeout.sound := by
  cases d : s.params.direction with
  | tx =>
    have e : s.postTimeout = s.postFor .timeout .poll := by simp [State.postTimeout, State.postFor, d]
    rw [e]; exact State.sound_postFor h _ _
  | rx =>
    have e : s.postTimeout = s := by simp [State.postTimeout, d]
    rw [e]; exact h

/-! ## Dispatches -/

theorem State.callbacksSound_of_tx {s t : State} (d : s.params.direction = .tx) (params : t.params = s.params)
    (c : t.callbacks = s.callbacks ∨ t.callbacks = txCallbacks) (h : s.callbacksSound) : t.callbacksSound := by
  simp only [State.callbacksSound, params, d] at h ⊢
  rcases c with c | c
  · rw [c]; exact h
  · rw [c]
    exact ⟨fun _ he => (Option.some.inj he).symm, fun _ he => (Option.some.inj he).symm,
      fun _ he => (Option.some.inj he).symm⟩

theorem State.callbacksSound_of_rx {s t : State} (d : s.params.direction = .rx) (params : t.params = s.params)
    (c : t.callbacks = s.callbacks ∨ t.callbacks = rxCallbacks) (h : s.callbacksSound) : t.callbacksSound := by
  simp only [State.callbacksSound, params, d] at h ⊢
  rcases c with c | c
  · rw [c]; exact h
  · rw [c]
    exact ⟨fun _ he => (Option.some.inj he).symm, fun _ he => (Option.some.inj he).symm,
      fun _ he => (Option.some.inj he).symm⟩

theorem State.sound_txDispatch {s t : State} {e : TxEvent} (d : s.params.direction = .tx) (run : txDispatch e s = .ok t)
    (h : s.sound) : t.sound := by
  obtain ⟨pending, callbacks, sound⟩ := (State.sound_tx_iff d).1 h
  have txSound := txDispatch_sound run sound
  obtain ⟨a, n, rs, r, p, up, c, tm, rfl, -, posted, registered, -⟩ := txDispatch_evolves run
  refine (State.sound_tx_iff (by exact d)).2
    ⟨?_, State.callbacksSound_of_tx d rfl registered callbacks, txSound⟩
  simp only [State.pendingLegal, d] at pending ⊢
  rcases posted with rfl | rfl
  · exact pending
  · exact (or_mask_reserved _ rfl).trans pending

theorem State.sound_rxDispatch {s t : State} {e : RxEvent} (d : s.params.direction = .rx) (run : rxDispatch e s = .ok t)
    (h : s.sound) : t.sound := by
  obtain ⟨pending, callbacks, sound⟩ := (State.sound_rx_iff d).1 h
  have rxSound := rxDispatch_sound run sound
  obtain ⟨a, n, rs, r, up, c, rfl, -, registered, -⟩ := rxDispatch_evolves run
  exact (State.sound_rx_iff (by exact d)).2 ⟨pending, State.callbacksSound_of_rx d rfl registered callbacks, rxSound⟩

/-! ## The bodies of `CFGINIT`, `ENENC` and `DISENC` -/

/-- The interruption point inside `CFGINIT` finds `PendingEvents` 0 and the callbacks of before. -/
theorem resetRegisters_arrive_legal {s : State} (h : s.callbacksSound) :
    (resetRegisters s).arrive.pendingEvents &&& reservedEventMask s.params.direction = 0#16 := by
  have folded (l : List Interrupt) : ∀ u : State, u.callbacksSound →
      u.pendingEvents &&& reservedEventMask u.params.direction = 0#16 →
      (l.foldl State.takeInterrupt u).pendingEvents &&& reservedEventMask u.params.direction = 0#16 := by
    induction l with
    | nil => exact fun _ _ legal => legal
    | cons i l ih =>
      intro u sound legal
      obtain ⟨p, tm, e, -⟩ := u.takeInterrupt_eq i
      have next := ih (u.takeInterrupt i) (by rw [e]; exact sound)
        (by rw [State.takeInterrupt_params, State.takeInterrupt_reserved sound]; exact legal)
      rw [State.takeInterrupt_params] at next
      exact next
  cases due : s.arrivals with
  | nil =>
    have := (resetRegisters_arrive (s := s) (.inr ⟨due, rfl, rfl⟩)).1
    rw [this]
    exact folded [] { s with pendingEvents := 0#16 } h BitVec.zero_and
  | cons now later =>
    rw [(resetRegisters_arrive (.inl due)).1]
    exact folded now { s with pendingEvents := 0#16 } h BitVec.zero_and

theorem State.callbacksSound_of_unregistered {s : State} (h : s.callbacks = .none) : s.callbacksSound := by
  cases d : s.params.direction <;> simp only [State.callbacksSound, d, h] <;> exact ⟨nofun, nofun, nofun⟩

theorem State.sound_initialise {s : State} (h : s.sound) : (initialise s).sound := by
  have legal := resetRegisters_arrive_legal h.2.1
  cases d : s.params.direction with
  | tx =>
    obtain ⟨-, -, literal, -⟩ := (State.sound_tx_iff d).1 h
    obtain ⟨p, tm, l, arrive, -, e⟩ := initialise_tx d
    rw [arrive] at legal
    rw [e]
    refine (State.sound_tx_iff (by exact d)).2 ⟨legal, State.callbacksSound_of_unregistered rfl, literal, .disabled,
      ⟨rfl, rfl, rfl⟩, TxStats.zero_fits _, ⟨fun nonzero => absurd rfl nonzero, nofun⟩, fun hook armed => ?_⟩
    exact absurd (if_pos hook) armed
  | rx =>
    obtain ⟨-, -, -, -, unarmed⟩ := (State.sound_rx_iff d).1 h
    obtain ⟨p, tm, l, arrive, timer, e⟩ := initialise_rx d
    rw [arrive] at legal
    rw [e]
    refine (State.sound_rx_iff (by exact d)).2 ⟨legal, State.callbacksSound_of_unregistered rfl,
      ⟨.disabled, rfl, rfl⟩, Nat.two_pow_pos _, ?_⟩
    rcases timer with rfl | rfl
    · exact unarmed
    · rfl

theorem State.sound_of_asks {s t : State} (h : s.asks t) (sound : s.sound) : t.sound := by
  obtain ⟨a, n, rs, rfl⟩ := h
  exact sound

/-- Nothing that is promised of a Tx speaks of its map. -/
theorem State.sound_setMap {s : State} (h : s.sound) (m : Wide) :
    (s.setTx { s.tx with encryptionMap := m }).sound := h

theorem keptAll_sound : KeptAll State.sound where
  result _ _ h := h
  inputs _ _ h := h
  arrivals _ _ h := h
  interrupt _ i h := State.sound_takeInterrupt h i
  post _ t r h := State.sound_postFor h t r
  timeout _ h := State.sound_postTimeout h
  clear s h := State.sound_of_pending_timer h (tm := s.timer) rfl (BitVec.zero_and.trans h.1.symm) (.inl rfl)
  dispatchTx _ _ _ d run h := State.sound_txDispatch d run h
  dispatchRx _ _ _ d run h := State.sound_rxDispatch d run h
  lanes _ _ h := h
  keys _ _ h := h
  info _ h := h
  getenc s _ h := State.sound_of_asks s.asks_cipherGetEncryption h
  init _ h := State.sound_initialise h
  enenc _ _ _ _ d body h := State.sound_of_asks (enencBody_asks d body) (State.sound_setMap h _)
  disenc _ _ _ _ d body h := State.sound_of_asks (disencBody_asks d body) (State.sound_setMap h _)

/-- Settles O60: every part of a step keeps a sound state sound. -/
theorem stepKeepsInstanceSound : Obligations.StepKeepsInstanceSound :=
  fun _ _ sound h => keptAll_sound.step h sound

/-! ## What an Rx keeps to (44_rx_events.md R265) -/

/-- `t` comes after `s` on an Rx that has kept to its interfaces. -/
def State.rxWithin (s t : State) : Prop :=
  t.params = s.params ∧ t.tx = s.tx ∧ (t.timer = s.timer ∨ t.timer = none) ∧ State.rxAsked s.params s t

theorem State.rxWithin_refl (s : State) : s.rxWithin s := ⟨rfl, rfl, .inl rfl, [], by simp, nofun⟩

theorem State.rxWithin_trans {s t u : State} (h : s.rxWithin t) (g : t.rxWithin u) : s.rxWithin u := by
  obtain ⟨params, tx, timer, asked⟩ := h
  obtain ⟨params', tx', timer', asked'⟩ := g
  refine ⟨params'.trans params, tx'.trans tx, ?_, State.rxAsked_trans asked (params ▸ asked')⟩
  rcases timer' with same | unarmed
  · rw [same]; exact timer
  · exact .inr unarmed

/-- An update that touches none of the four is within the interfaces. -/
theorem State.rxWithin_of_eq {s t : State} (params : t.params = s.params) (tx : t.tx = s.tx)
    (timer : t.timer = s.timer ∨ t.timer = none) (requests : t.requests = s.requests) : s.rxWithin t :=
  ⟨params, tx, timer, [], by simp [requests], nofun⟩

theorem State.rxWithin_of_evolves {s t : State} (h : s.rxEvolves t) : s.rxWithin t :=
  ⟨State.rxEvolves_params h, State.rxEvolves_tx h, .inl (State.rxEvolves_timer h), State.rxAsked_of h⟩

theorem initialise_rxWithin {s : State} (d : s.params.direction = .rx) : s.rxWithin (initialise s) := by
  obtain ⟨p, tm, l, -, timer, e⟩ := initialise_rx d
  rw [e]
  refine ⟨rfl, rfl, timer, [.portDisable, .cipherDisable], rfl, fun q mem => ?_⟩
  simp only [List.mem_cons, List.not_mem_nil, or_false] at mem
  rcases mem with rfl | rfl <;> simp [rxAllowed]

theorem keptAll_rxWithin {s : State} (d : s.params.direction = .rx) : KeptAll s.rxWithin := by
  have direction {u : State} (h : s.rxWithin u) : u.params.direction = .rx := by rw [h.1]; exact d
  have notTx {u : State} (h : s.rxWithin u) {p : Prop} (dt : u.params.direction = .tx) : p := by
    rw [direction h] at dt; cases dt
  have same {u v : State} (h : s.rxWithin u) (e : ∃ p, v = u.setPending p) : s.rxWithin v := by
    obtain ⟨p, rfl⟩ := e; exact h
  have evolved {u v : State} (h : s.rxWithin u) (g : u.rxEvolves v) : s.rxWithin v :=
    State.rxWithin_trans h (State.rxWithin_of_evolves g)
  exact {
    result := fun _ _ h => h
    inputs := fun _ _ h => h
    arrivals := fun _ _ h => h
    interrupt := fun u i h => by
      obtain ⟨p, tm, e, timer⟩ := u.takeInterrupt_eq i
      rw [e]
      exact State.rxWithin_trans h (State.rxWithin_of_eq rfl rfl timer rfl)
    post := fun u t r h => same h (u.postFor_eq t r)
    timeout := fun u h => same h u.postTimeout_eq
    clear := fun _ h => h
    dispatchTx := fun _ _ _ dt _ h => notTx h dt
    dispatchRx := fun _ _ _ _ run h => evolved h (rxDispatch_evolves run)
    lanes := fun u _ h => evolved h (u.rxEvolves_issue _ (by simp [rxAllowed]))
    keys := fun u _ h => evolved h (u.rxEvolves_issue _ (by simp [rxAllowed]))
    info := fun u h => evolved h (u.rxEvolves_takeAnswer _)
    getenc := fun u _ h => evolved h (u.rxEvolves_draw _ (by simp [rxAllowed]) _ _ _)
    init := fun _ h => State.rxWithin_trans h (initialise_rxWithin (direction h))
    enenc := fun _ _ _ _ dt _ h => notTx h dt
    disenc := fun _ _ _ _ dt _ h => notTx h dt }

/-- Settles O58: no part of a step on an Rx leaves its interfaces. -/
theorem rxStaysWithinItsInterfaces : Obligations.RxStaysWithinItsInterfaces := by
  intro s t d h
  obtain ⟨-, tx, timer, asked⟩ := (keptAll_rxWithin d).step h s.rxWithin_refl
  exact ⟨tx, timer, asked⟩

end Sys2Proof.Machine
end

section
/-! The statements of 41_event_queue.md about whole dispatches: where they end, and that a post commutes with them. -/

namespace Sys2Proof.Machine

/-! ## No part of a dispatch raises the loop's own fault -/

/-- The bound of four entry actions (41_event_queue.md R158) is not what stops `x`. -/
def inBound {α : Type} (x : Except Fault α) : Prop := x ≠ .error .chainTooLong

section
variable {α β : Type}

theorem inBound_ok (a : α) : inBound (.ok a : Except Fault α) := nofun

theorem inBound_bind {x : Except Fault α} {f : α → Except Fault β} (hx : inBound x) (hf : ∀ a, inBound (f a)) :
    inBound (x >>= f) := by
  cases x with
  | ok a => exact hf a
  | error e => exact fun h => hx (by cases h; rfl)

theorem inBound_map {x : Except Fault α} (f : α → β) (hx : inBound x) : inBound (x.map f) := by
  cases x with
  | ok a => exact inBound_ok _
  | error e => exact fun h => hx (by cases h; rfl)

end

theorem inBound_transferred (n : Nat) (k : Int) : inBound (transferred n k) := by
  unfold transferred
  split <;> exact nofun

theorem inBound_portRead (s : State) (off : Byte) (n : Nat) : inBound (s.portRead off n) :=
  inBound_bind (inBound_transferred _ _) fun _ => inBound_ok _

theorem inBound_portWrite (s : State) (off : Byte) (l : List Byte) : inBound (s.portWrite off l) :=
  inBound_bind (inBound_transferred _ _) fun _ => inBound_ok _

theorem inBound_awaitCipher (l : List Bool) (s : State) : inBound (State.awaitCipher l s) := by
  induction l generalizing s with
  | nil => unfold State.awaitCipher; split <;> exact nofun
  | cons done l ih =>
    unfold State.awaitCipher
    dsimp only
    split
    · exact inBound_ok _
    · exact ih _

theorem inBound_busyDelay (s : State) (ms : Nat) : inBound (s.busyDelay ms) := by
  unfold State.busyDelay
  dsimp only
  split
  · split <;> exact nofun
  · exact inBound_ok _

/-! ### Transmitter -/

theorem inBound_applyEncryption (s : State) : inBound (applyEncryption s) := by
  unfold applyEncryption
  split
  · exact inBound_ok _
  · exact inBound_bind (inBound_busyDelay _ _) fun _ => inBound_busyDelay _ _

theorem inBound_generateAn (s : State) : inBound (generateAn s) :=
  inBound_bind (inBound_awaitCipher _ _) fun _ => inBound_ok _

theorem inBound_sendAnAksv (k : Wide) (s : State) : inBound (sendAnAksv k s) := by
  refine inBound_bind (inBound_portWrite _ _ _) fun ⟨ok, t⟩ => ?_
  cases ok
  · exact inBound_ok _
  · refine inBound_bind (inBound_portWrite _ _ _) fun ⟨ok, u⟩ => ?_
    cases ok <;> exact inBound_ok _

theorem inBound_exchangeWith (k : Wide) (s : State) : inBound (exchangeWith k s) := by
  unfold exchangeWith
  dsimp only
  split
  · split
    · exact inBound_ok _
    · exact inBound_bind (inBound_generateAn _) fun _ => inBound_sendAnAksv _ _
  · exact inBound_ok _

theorem inBound_exchangeKsvs (s : State) : inBound (exchangeKsvs s) := by
  refine inBound_bind (inBound_portRead _ _ _) fun ⟨r, s1⟩ => ?_
  cases r with
  | none => exact inBound_ok _
  | some b => exact inBound_exchangeWith _ _

theorem inBound_testForRepeater (s : State) : inBound (testForRepeater s) := by
  unfold testForRepeater
  split
  · exact inBound_bind (inBound_portWrite _ _ _) fun _ =>
      inBound_bind (inBound_applyEncryption _) fun _ => inBound_ok _
  · exact inBound_ok _

theorem inBound_readKsvFifo (fuel left : Nat) (l : List Byte) (s : State) : inBound (readKsvFifo fuel left l s) := by
  induction fuel, left, l, s using readKsvFifo.induct with
  | case1 => rw [readKsvFifo]; exact inBound_ok _
  | case2 => exact nofun
  | case3 fuel left l s m ih =>
    rw [readKsvFifo]
    refine inBound_bind (inBound_portRead _ _ _) fun ⟨r, s1⟩ => ?_
    cases r with
    | none => exact inBound_ok _
    | some b => exact ih b s1

theorem inBound_compareVPrime (l : List (Byte × Word)) (s : State) : inBound (compareVPrime l s) := by
  induction l generalizing s with
  | nil => exact inBound_ok _
  | cons p l ih =>
    rw [compareVPrime]
    refine inBound_bind (inBound_portRead _ _ _) fun ⟨r, s1⟩ => ?_
    cases r with
    | none => exact inBound_ok _
    | some b =>
      dsimp only
      split
      · exact ih s1
      · exact inBound_ok _

theorem inBound_ksvListAttempt (s : State) : inBound (ksvListAttempt s) := by
  refine inBound_bind (inBound_readKsvFifo _ _ _ _) fun ⟨r, s1⟩ => ?_
  cases r with
  | none => exact inBound_ok _
  | some l => exact inBound_compareVPrime _ _

theorem inBound_ksvListAttempts (n : Nat) (s : State) : inBound (ksvListAttempts n s) := by
  induction n generalizing s with
  | zero => exact inBound_ok _
  | succ n ih =>
    refine inBound_bind (inBound_ksvListAttempt s) fun ⟨ok, s1⟩ => ?_
    cases ok
    · exact ih s1
    · exact inBound_ok _

theorem inBound_validateKsvList (s : State) : inBound (validateKsvList s) :=
  inBound_bind (inBound_ksvListAttempts _ _) fun _ => inBound_ok _

theorem inBound_enterAuthenticated (s : State) : inBound (enterAuthenticated s) :=
  inBound_bind (inBound_applyEncryption _) fun _ => inBound_ok _

theorem inBound_roTries (ro : Half) (n : Nat) (s : State) : inBound (roTries ro n s) := by
  induction n generalizing s with
  | zero => exact inBound_ok _
  | succ n ih =>
    refine inBound_bind (inBound_portRead _ _ _) fun ⟨r, s1⟩ => ?_
    cases r with
    | none => exact ih _
    | some b =>
      dsimp only
      split
      · exact inBound_ok _
      · exact ih s1

theorem inBound_validateRx (s : State) : inBound (validateRx s) :=
  inBound_bind (inBound_roTries _ _ _) fun _ => inBound_ok _

theorem inBound_riTries (n : Nat) (s : State) : inBound (riTries n s) := by
  induction n generalizing s with
  | zero => exact inBound_ok _
  | succ n ih =>
    refine inBound_bind (inBound_portRead _ _ _) fun ⟨r, s1⟩ => ?_
    cases r with
    | none => exact ih _
    | some b =>
      dsimp only
      split
      · exact inBound_ok _
      · exact ih s1

theorem inBound_linkIntegrityCheck (s : State) : inBound (linkIntegrityCheck s) :=
  inBound_bind (inBound_riTries _ _) fun _ => inBound_ok _

theorem inBound_txEnter (st : TxState) (s : State) : inBound (txEnter st s) := by
  cases st with
  | exchangeKsvs => exact inBound_exchangeKsvs s
  | authenticated => exact inBound_map _ (inBound_enterAuthenticated s)
  | linkIntegrityCheck => exact inBound_linkIntegrityCheck s
  | testForRepeater => exact inBound_testForRepeater s
  | readKsvList => exact inBound_validateKsvList s
  | disabled | determineRxCapable | computations | validateRx | waitForReady | unauthenticated | phyDown =>
    exact inBound_ok _

theorem inBound_txRun (e : TxEvent) (st : TxState) (s : State) : inBound (txRun e st s) := by
  cases e with
  | timeout =>
    cases st with
    | validateRx => exact inBound_validateRx s
    | _ => exact inBound_ok _
  | _ => cases st <;> exact inBound_ok _

theorem TxState.rank_le (st : TxState) : st.rank ≤ chainBound := by cases st <;> decide

theorem inBound_txDispatch (e : TxEvent) (s : State) : inBound (txDispatch e s) := by
  unfold txDispatch
  dsimp only
  refine inBound_bind ?_ fun cur => ?_
  · unfold txCurrent
    split <;> exact nofun
  · split
    · exact nofun
    · exact inBound_bind (inBound_txRun _ _ _) fun r =>
        txChain_bound (.inr r.1.rank_le) fun st u => inBound_txEnter st u

/-! ### Receiver -/

theorem inBound_publishRiRo (s : State) : inBound (publishRiRo s) :=
  inBound_bind (inBound_portWrite _ _ _) fun _ => inBound_ok _

theorem inBound_updateRi (s : State) : inBound (updateRi s) :=
  inBound_bind (inBound_portWrite _ _ _) fun _ => inBound_ok _

theorem inBound_setDpLinkFailure (s : State) : inBound (setDpLinkFailure s) := by
  refine inBound_bind (inBound_portRead _ _ _) fun ⟨r, s1⟩ => ?_
  cases r with
  | none => exact inBound_ok _
  | some b => exact inBound_bind (inBound_portWrite _ _ _) fun _ => inBound_ok _

theorem inBound_checkLinkIntegrity (s : State) : inBound (checkLinkIntegrity s) := by
  unfold checkLinkIntegrity
  dsimp only
  split
  · exact inBound_ok _
  · split
    · exact inBound_bind (inBound_setDpLinkFailure _) fun _ => inBound_ok _
    · exact inBound_ok _

theorem inBound_rxStartComputations (s : State) : inBound (rxStartComputations s) := by
  refine inBound_bind (inBound_portRead _ _ _) fun ⟨r, s1⟩ => ?_
  cases r with
  | none => exact inBound_ok _
  | some b1 =>
    refine inBound_bind (inBound_portRead _ _ _) fun ⟨r, s2⟩ => ?_
    cases r <;> exact inBound_ok _

theorem inBound_rxExit (st : RxState) (s : State) : inBound (rxExit st s) := by
  cases st with
  | disabled => exact inBound_bind (inBound_portWrite _ _ _) fun _ => inBound_ok _
  | unauthenticated | computations | authenticated | linkIntegrityFailed | phyDown => exact inBound_ok _

theorem inBound_rxEnter (st : RxState) (s : State) : inBound (rxEnter st s) := by
  cases st with
  | computations => exact inBound_rxStartComputations s
  | disabled | unauthenticated | authenticated | linkIntegrityFailed | phyDown => exact inBound_ok _

theorem inBound_rxRunPoll (st : RxState) (s : State) : inBound (rxRunPoll st s) := by
  cases st with
  | computations =>
    rw [rxRunPoll]
    split
    · exact inBound_bind (inBound_publishRiRo _) fun _ => inBound_ok _
    · exact inBound_ok _
  | disabled | unauthenticated | authenticated | linkIntegrityFailed | phyDown => exact inBound_ok _

theorem inBound_rxRunUpdateRi (st : RxState) (s : State) : inBound (rxRunUpdateRi st s) := by
  cases st with
  | authenticated =>
    rw [rxRunUpdateRi]
    split
    · exact inBound_map _ (inBound_updateRi s)
    · exact inBound_ok _
  | disabled | unauthenticated | computations | linkIntegrityFailed | phyDown => exact inBound_ok _

theorem inBound_rxRun (e : RxEvent) (st : RxState) (s : State) : inBound (rxRun e st s) := by
  cases e with
  | authenticate =>
    cases st with
    | computations => exact inBound_rxStartComputations s
    | _ => exact inBound_ok _
  | check =>
    cases st with
    | authenticated | linkIntegrityFailed => exact inBound_checkLinkIntegrity s
    | _ => exact inBound_ok _
  | poll => exact inBound_rxRunPoll st s
  | updateRi => exact inBound_rxRunUpdateRi st s
  | disable | enable | phyDown | phyUp => cases st <;> exact inBound_ok _

theorem inBound_rxDispatch (e : RxEvent) (s : State) : inBound (rxDispatch e s) := by
  unfold rxDispatch
  dsimp only
  refine inBound_bind ?_ fun cur => ?_
  · unfold rxCurrent
    split <;> exact nofun
  · split
    · exact nofun
    · exact inBound_bind (inBound_rxRun _ _ _) fun _ =>
        rxChain_bound (.inr (.inl (by decide))) inBound_rxEnter inBound_rxExit

/-- Settles O57: the loop ends in the state it was in or after a resting state's entry, and its bound is enough. -/
theorem dispatchEndsAtRest : Obligations.DispatchEndsAtRest := by
  refine ⟨fun s t st e hst rests run => ?_, fun s e => inBound_txDispatch e s, fun s e => inBound_rxDispatch e s⟩
  obtain ⟨cur, hc, legal, n, u, runs, chain⟩ := txDispatch_cases run
  obtain ⟨-, current, previous, -⟩ := txRun_spec runs
  simp only [State.updatePhyTx_tx] at current previous
  have same : cur = st := TxState.code_inj (hc.symm.trans hst)
  subst same
  obtain ⟨-, fin, hf, ends⟩ := txChain_spec chain (current.trans hc)
  rcases ends with ⟨-, rfl⟩ | ⟨-, resting, p, hp⟩
  · exact ⟨cur, current.trans hc, rests, by rw [previous]; exact legal⟩
  · exact ⟨fin, hf, resting, by rw [hp]; simp⟩

/-- The exit of Rx `DISABLED` up to the query of the local KSV (44_rx_events.md R261). -/
def rxEnabling (s : State) : State :=
  ((((s.issue (.cipherSetLinkStateCheck false)).issue (.cipherSetRiUpdate false)).cipherSetLinkFailCallback
    (.rx .check)).cipherSetRiUpdateCallback (.rx .updateRi)).issue .cipherEnable

theorem rxExitDisabled_eq (s : State) :
    rxExitDisabled s = (rxLocalKsv (rxEnabling s)).2.portWrite s.params.portMap.bksv
      (leBytes s.params.literals.ksvBytes (rxLocalKsv (rxEnabling s)).1) >>= fun r =>
        .ok ((r.2.portSetAuthCallback (.rx .authenticate)).issue .portEnable) := rfl

/-! ## What no part of a dispatch reads: the events pending and the last result -/

/-- A change of what a dispatch does not read: events pending as well, and another last result. -/
structure Unread where
  events : Half
  result : Option Result → Option Result

/-- `s` after such a change. Every part of a dispatch commutes with it. -/
def State.also (s : State) (m : Unread) : State :=
  { s with pendingEvents := s.pendingEvents ||| m.events, result := m.result s.result }

/-- `State.also` on a state that comes with an answer. -/
def alsoSnd {α : Type} (m : Unread) (r : α × State) : α × State := (r.1, r.2.also m)

/-- A post that suppresses nothing sets bits. -/
theorem State.post_eq_also {e : Event} (quiet : e.suppressed = 0#16) (s : State) : s.post e = s.also ⟨e.mask, id⟩ := by
  rw [State.post_unsuppressed quiet]
  rfl

theorem State.setResult_eq_also (s : State) (r : Result) : s.setResult r = s.also ⟨0#16, fun _ => some r⟩ := by
  simp [State.also, State.setResult]

/-- Parts that commute with changes `g` and `k` of what they hand on commute in sequence. -/
theorem bind_commutes {α β : Type} {x x' : Except Fault α} {f f' : α → Except Fault β} {g : α → α} {k : β → β}
    (hx : x' = x.map g) (hf : ∀ a, f' (g a) = (f a).map k) : (x' >>= f') = (x >>= f).map k := by
  subst hx
  cases x with
  | ok a => exact hf a
  | error e => rfl

theorem bind_same_commutes {α β : Type} {x : Except Fault α} {f f' : α → Except Fault β} {k : β → β}
    (hf : ∀ a, f' a = (f a).map k) : (x >>= f') = (x >>= f).map k := by
  cases x with
  | ok a => exact hf a
  | error e => rfl

theorem ite_commutes {α : Type} {c : Prop} {i j : Decidable c} {a b a' b' : α} {k : α → α} (ha : a' = k a)
    (hb : b' = k b) : @ite _ c i a' b' = k (@ite _ c j a b) := by
  by_cases h : c <;> simp [h, ha, hb]

theorem map_commutes {α β : Type} {x x' : Except Fault α} {f f' : α → β} {g : α → α} {k : β → β}
    (hx : x' = x.map g) (hf : ∀ a, f' (g a) = k (f a)) : x'.map f' = (x.map f).map k := by
  subst hx
  cases x with
  | ok a => exact congrArg Except.ok (hf a)
  | error e => rfl

section
variable (m : Unread) (s : State)

@[simp] theorem State.also_params : (s.also m).params = s.params := rfl
@[simp] theorem State.also_tx : (s.also m).tx = s.tx := rfl
@[simp] theorem State.also_rx : (s.also m).rx = s.rx := rfl
@[simp] theorem State.also_answers : (s.also m).answers = s.answers := rfl
@[simp] theorem State.also_draws : (s.also m).draws = s.draws := rfl
@[simp] theorem State.also_phyUp : (s.also m).phyUp = s.phyUp := rfl
@[simp] theorem State.also_callbacks : (s.also m).callbacks = s.callbacks := rfl
theorem State.also_issue (r : Request) : (s.also m).issue r = (s.issue r).also m := rfl
theorem State.also_portSetAuthCallback (e : Event) :
    (s.also m).portSetAuthCallback e = (s.portSetAuthCallback e).also m := rfl
theorem State.also_cipherSetLinkFailCallback (e : Event) :
    (s.also m).cipherSetLinkFailCallback e = (s.cipherSetLinkFailCallback e).also m := rfl
theorem State.also_cipherSetRiUpdateCallback (e : Event) :
    (s.also m).cipherSetRiUpdateCallback e = (s.cipherSetRiUpdateCallback e).also m := rfl
theorem State.also_setTx (r : TxRegs) : (s.also m).setTx r = (s.setTx r).also m := rfl
theorem State.also_takeAnswer (a : Answers) : (s.also m).takeAnswer a = (s.takeAnswer a).also m := rfl

theorem State.also_draw {α : Type} (l : List α) (keep : List α → Answers) (free : Nat → α) :
    (s.also m).draw l keep free = alsoSnd m (s.draw l keep free) := by
  cases l <;> rfl

theorem State.also_post {e : Event} (quiet : e.suppressed = 0#16) : (s.also m).post e = (s.post e).also m := by
  have order : s.pendingEvents ||| m.events ||| e.mask = s.pendingEvents ||| e.mask ||| m.events := by
    rw [BitVec.or_assoc, BitVec.or_assoc, BitVec.or_comm m.events]
  simp only [State.post_unsuppressed quiet, State.also, order]

/-! ### Requests -/

theorem State.also_portRead (off : Byte) (n : Nat) :
    (s.also m).portRead off n = (s.portRead off n).map (alsoSnd m) := by
  simp only [State.portRead, State.also_issue, State.also_draw, State.also_answers]
  exact bind_same_commutes fun _ => rfl

theorem State.also_portWrite (off : Byte) (l : List Byte) :
    (s.also m).portWrite off l = (s.portWrite off l).map (alsoSnd m) := by
  simp only [State.portWrite, State.also_issue, State.also_draw, State.also_answers]
  exact bind_same_commutes fun _ => rfl

theorem State.also_queryComplete (n : Nat) : (s.also m).queryComplete n = (s.queryComplete n).also m := by
  induction n generalizing s with
  | zero => rfl
  | succ n ih => exact ih ((s.issue .cipherIsRequestComplete).takeAnswer s.answers)

theorem State.also_awaitCipher (l : List Bool) :
    State.awaitCipher l (s.also m) = (State.awaitCipher l s).map (·.also m) := by
  induction l generalizing s with
  | nil =>
    simp only [State.awaitCipher, State.also_draws, State.also_queryComplete]
    cases Config.freeWait s.draws <;> rfl
  | cons done l ih =>
    simp only [State.awaitCipher, State.also_answers, State.also_issue, State.also_takeAnswer, ih]
    cases done <;> rfl

theorem State.also_busyDelay (ms : Nat) : (s.also m).busyDelay ms = (s.busyDelay ms).map (·.also m) := by
  simp only [State.busyDelay, State.also_params, State.also_answers, State.also_issue, State.also_draw, alsoSnd]
  split
  · split <;> rfl
  · rfl

theorem State.also_isKsvRevoked (k : Wide) : (s.also m).isKsvRevoked k = alsoSnd m (s.isKsvRevoked k) := by
  simp only [State.isKsvRevoked, State.also_params, State.also_answers, State.also_issue, State.also_draw]
  split <;> rfl

theorem State.also_startTimer (ms : Nat) : (s.also m).startTimer ms = (s.startTimer ms).also m := by
  simp only [State.startTimer_eq]; rfl

theorem State.also_stopTimer : (s.also m).stopTimer = s.stopTimer.also m := by
  simp only [State.stopTimer_eq]; rfl

/-! ### Transmitter -/

theorem also_applyEncryption : applyEncryption (s.also m) = (applyEncryption s).map (·.also m) := by
  refine ite_commutes rfl (bind_commutes (s.also_busyDelay m _) fun t => ?_)
  exact (t.issue _).also_busyDelay m _

theorem also_determineRxCapable : determineRxCapable (s.also m) = alsoSnd m (determineRxCapable s) := by
  unfold determineRxCapable State.portIsCapable
  simp only [State.setCheckLinkState, State.also_issue, State.also_answers, State.also_draw]
  rfl

theorem also_generateAn : generateAn (s.also m) = (generateAn s).map (·.also m) := by
  refine bind_commutes ((s.issue _).also_awaitCipher m _) fun t => ?_
  simp only [State.cipherGetMi, State.also_issue, State.also_answers, State.also_draw]
  rfl

theorem also_sendAnAksv (k : Wide) : sendAnAksv k (s.also m) = (sendAnAksv k s).map (alsoSnd m) := by
  refine bind_commutes (s.also_portWrite m _ _) fun ⟨ok, t⟩ => ?_
  cases ok
  · rfl
  · have asks : (t.also m).cipherGetLocalKsv = alsoSnd m t.cipherGetLocalKsv := (t.issue _).also_draw m _ _ _
    simp only [alsoSnd, if_true, asks, State.also_params]
    refine bind_commutes (State.also_portWrite m _ _ _) fun ⟨ok, u⟩ => ?_
    cases ok <;> rfl

theorem also_exchangeWith (k : Wide) : exchangeWith k (s.also m) = (exchangeWith k s).map (alsoSnd m) := by
  have asks (t : State) : (t.also m).portIsRepeater = alsoSnd m t.portIsRepeater := (t.issue _).also_draw m _ _ _
  simp only [exchangeWith, State.also_isKsvRevoked, alsoSnd, asks]
  refine ite_commutes (ite_commutes rfl ?_) rfl
  exact bind_commutes (also_generateAn m (State.setIsRepeater _ _)) fun t => also_sendAnAksv m t k

theorem also_exchangeKsvs : exchangeKsvs (s.also m) = (exchangeKsvs s).map (alsoSnd m) := by
  refine bind_commutes (s.also_portRead m _ _) fun ⟨r, t⟩ => ?_
  cases r with
  | none => rfl
  | some b => exact also_exchangeWith m t _

theorem also_pollForComputations : pollForComputations (s.also m) = alsoSnd m (pollForComputations s) := by
  simp only [pollForComputations, State.cipherIsRequestComplete, State.also_issue, State.also_answers, State.also_draw]
  rfl

theorem also_testForRepeater : testForRepeater (s.also m) = (testForRepeater s).map (alsoSnd m) := by
  refine ite_commutes (bind_commutes (s.also_portWrite m _ _) fun ⟨ok, t⟩ => ?_) rfl
  cases ok
  · exact bind_commutes (also_applyEncryption m t.readFailure) fun _ => rfl
  · exact bind_commutes (also_applyEncryption m t) fun _ => rfl

theorem also_readinessCheck (b : Bool) : readinessCheck b (s.also m) = alsoSnd m (readinessCheck b s) := by
  have asks : (s.also m).portGetRepeaterInfo = alsoSnd m s.portGetRepeaterInfo := (s.issue _).also_draw m _ _ _
  unfold readinessCheck
  rw [asks]
  obtain ⟨info, t⟩ := s.portGetRepeaterInfo
  cases info <;> rfl

theorem also_readKsvFifo (fuel left : Nat) (l : List Byte) :
    readKsvFifo fuel left l (s.also m) = (readKsvFifo fuel left l s).map (alsoSnd m) := by
  induction fuel, left, l, s using readKsvFifo.induct with
  | case1 => simp only [readKsvFifo]; rfl
  | case2 => rfl
  | case3 fuel left l s n ih =>
    simp only [readKsvFifo, State.also_params]
    refine bind_commutes (s.also_portRead m _ _) fun ⟨r, t⟩ => ?_
    cases r with
    | none => rfl
    | some b => exact ih b t

theorem also_compareVPrime (l : List (Byte × Word)) :
    compareVPrime l (s.also m) = (compareVPrime l s).map (alsoSnd m) := by
  induction l generalizing s with
  | nil => rfl
  | cons p l ih =>
    simp only [compareVPrime, State.also_params]
    refine bind_commutes (s.also_portRead m _ _) fun ⟨r, t⟩ => ?_
    cases r with
    | none => rfl
    | some b => exact ite_commutes (ih t) rfl

theorem also_ksvListAttempt : ksvListAttempt (s.also m) = (ksvListAttempt s).map (alsoSnd m) := by
  refine bind_commutes (also_readKsvFifo m s _ _ _) fun ⟨r, t⟩ => ?_
  cases r with
  | none => rfl
  | some l =>
    have asks : (t.also m).cipherGetMo = alsoSnd m t.cipherGetMo := (t.issue _).also_draw m _ _ _
    simp only [alsoSnd, asks, State.also_params, State.also_tx]
    exact also_compareVPrime m _ _

theorem also_ksvListAttempts (n : Nat) : ksvListAttempts n (s.also m) = (ksvListAttempts n s).map (alsoSnd m) := by
  induction n generalizing s with
  | zero => rfl
  | succ n ih =>
    refine bind_commutes (also_ksvListAttempt m s) fun ⟨ok, t⟩ => ?_
    cases ok
    · exact ih t
    · rfl

theorem also_validateKsvList : validateKsvList (s.also m) = (validateKsvList s).map (alsoSnd m) := by
  refine bind_commutes (also_ksvListAttempts m s _) fun ⟨ok, t⟩ => ?_
  cases ok <;> rfl

theorem also_enterAuthenticated : enterAuthenticated (s.also m) = (enterAuthenticated s).map (·.also m) := by
  have armed : (if (s.also m).tx.currentState = TxState.linkIntegrityCheck.code then s.also m
      else (s.also m).countAuthPassed.setCheckLinkState true) =
      (if s.tx.currentState = TxState.linkIntegrityCheck.code then s
        else s.countAuthPassed.setCheckLinkState true).also m := ite_commutes (k := fun t : State => t.also m) rfl rfl
  refine bind_commutes (g := fun t : State => t.also m) ?_ fun _ => rfl
  rw [armed, also_applyEncryption]

theorem also_roTries (ro : Half) (n : Nat) : roTries ro n (s.also m) = (roTries ro n s).map (alsoSnd m) := by
  induction n generalizing s with
  | zero => rfl
  | succ n ih =>
    refine bind_commutes (s.also_portRead m _ _) fun ⟨r, t⟩ => ?_
    cases r with
    | none => exact ih t.readFailure
    | some b => exact ite_commutes rfl (ih t)

theorem also_validateRx : validateRx (s.also m) = (validateRx s).map (alsoSnd m) := by
  have asks : (s.also m).cipherGetRo = alsoSnd m s.cipherGetRo := (s.issue _).also_draw m _ _ _
  simp only [validateRx, asks, State.also_params]
  refine bind_commutes (also_roTries m _ _ _) fun ⟨ok, t⟩ => ?_
  cases ok <;> rfl

theorem also_riTries (n : Nat) : riTries n (s.also m) = (riTries n s).map (alsoSnd m) := by
  induction n generalizing s with
  | zero => rfl
  | succ n ih =>
    have asks : (s.also m).cipherGetRi = alsoSnd m s.cipherGetRi := (s.issue _).also_draw m _ _ _
    simp only [riTries, asks, State.also_params]
    refine bind_commutes (State.also_portRead m _ _ _) fun ⟨r, t⟩ => ?_
    cases r with
    | none => exact ih t.readFailure
    | some b => exact ite_commutes rfl (ih t)

theorem also_linkIntegrityCheck : linkIntegrityCheck (s.also m) = (linkIntegrityCheck s).map (alsoSnd m) := by
  refine bind_commutes (also_riTries m s _) fun ⟨ok, t⟩ => ?_
  cases ok <;> rfl

theorem also_txEnter (st : TxState) : txEnter st (s.also m) = (txEnter st s).map (alsoSnd m) := by
  cases st with
  | disabled =>
    rw [txEnter, txEnterDisabled, State.also_stopTimer]
    rfl
  | determineRxCapable => exact congrArg Except.ok (also_determineRxCapable m s)
  | exchangeKsvs => exact also_exchangeKsvs m s
  | validateRx | waitForReady => exact congrArg (fun t => Except.ok (_, t)) (s.also_startTimer m _)
  | authenticated => exact map_commutes (also_enterAuthenticated m s) fun _ => rfl
  | linkIntegrityCheck => exact also_linkIntegrityCheck m s
  | testForRepeater => exact also_testForRepeater m s
  | readKsvList => exact also_validateKsvList m s
  | computations | unauthenticated | phyDown => rfl

theorem also_txExit (st : TxState) : txExit st (s.also m) = (txExit st s).also m := by
  simp only [txExit_eq]; rfl

theorem also_txRun (e : TxEvent) (st : TxState) : txRun e st (s.also m) = (txRun e st s).map (alsoSnd m) := by
  cases e with
  | phyUp =>
    cases st with
    | phyDown =>
      simp only [txRun, txRunPhyUp, State.also_tx, State.also_post m s (e := .tx .authenticate) rfl]
      split <;> rfl
    | _ => rfl
  | poll =>
    cases st with
    | computations => exact congrArg Except.ok (also_pollForComputations m s)
    | waitForReady =>
      simp only [txRun, txRunPoll, State.also_params, also_readinessCheck]
      split <;> rfl
    | _ => rfl
  | timeout =>
    cases st with
    | validateRx => exact also_validateRx m s
    | waitForReady => exact congrArg Except.ok (also_readinessCheck m s true)
    | _ => rfl
  | authenticate | check | disable | enable | linkDown | phyDown => cases st <;> rfl

theorem also_txChain (bound : Nat) (cur next : TxState) :
    txChain bound cur next (s.also m) = (txChain bound cur next s).map (·.also m) := by
  induction bound generalizing cur next s with
  | zero => unfold txChain; split <;> rfl
  | succ bound ih =>
    unfold txChain
    split
    · rfl
    · rw [also_txExit]
      exact bind_commutes (also_txEnter m _ next) fun ⟨after, t⟩ => ih (t.moveTx next) next after

theorem also_txDispatch (e : TxEvent) : txDispatch e (s.also m) = (txDispatch e s).map (·.also m) := by
  have phy : (s.also m).updatePhyTx e = (s.updatePhyTx e).also m := by cases e <;> rfl
  unfold txDispatch
  dsimp only
  rw [phy]
  refine bind_same_commutes (x := txCurrent (s.updatePhyTx e)) fun cur => ite_commutes rfl ?_
  exact bind_commutes (also_txRun m _ e cur) fun ⟨next, t⟩ => also_txChain m t chainBound cur next

/-! ### Receiver -/

theorem also_publishRiRo : publishRiRo (s.also m) = (publishRiRo s).map (·.also m) := by
  have ro : (s.also m).cipherGetRo = alsoSnd m s.cipherGetRo := (s.issue _).also_draw m _ _ _
  have ri : (s.also m).cipherGetRi = alsoSnd m s.cipherGetRi := (s.issue _).also_draw m _ _ _
  simp only [publishRiRo, State.also_params, ro, ri]
  cases s.params.protocol <;> exact bind_commutes (State.also_portWrite m _ _ _) fun _ => rfl

theorem also_updateRi : updateRi (s.also m) = (updateRi s).map (·.also m) := by
  have ri : (s.also m).cipherGetRi = alsoSnd m s.cipherGetRi := (s.issue _).also_draw m _ _ _
  simp only [updateRi, State.also_params, ri]
  exact bind_commutes (State.also_portWrite m _ _ _) fun _ => rfl

theorem also_setDpLinkFailure : setDpLinkFailure (s.also m) = (setDpLinkFailure s).map (·.also m) := by
  refine bind_commutes (s.also_portRead m _ _) fun ⟨r, t⟩ => ?_
  cases r with
  | none => rfl
  | some b => exact bind_commutes (t.also_portWrite m _ _) fun _ => rfl

theorem also_checkLinkIntegrity : checkLinkIntegrity (s.also m) = (checkLinkIntegrity s).map (alsoSnd m) := by
  have up : (s.also m).cipherIsLinkUp = alsoSnd m s.cipherIsLinkUp := (s.issue _).also_draw m _ _ _
  simp only [checkLinkIntegrity, State.also_params, up, alsoSnd]
  split
  · rfl
  · cases s.params.protocol
    · rfl
    · exact bind_commutes (also_setDpLinkFailure m _) fun _ => rfl

theorem also_rxArmLinkCheck : rxArmLinkCheck (s.also m) = (rxArmLinkCheck s).also m := by
  unfold rxArmLinkCheck
  refine ite_commutes (k := fun t : State => t.also m) rfl ?_
  rw [State.also_params]
  cases s.params.protocol <;> rfl

theorem also_rxLocalKsv : rxLocalKsv (s.also m) = alsoSnd m (rxLocalKsv s) := by
  have asks (t : State) : (t.also m).cipherGetLocalKsv = alsoSnd m t.cipherGetLocalKsv := (t.issue _).also_draw m _ _ _
  simp only [rxLocalKsv, asks, alsoSnd]
  split <;> rfl

theorem also_rxExitDisabled : rxExitDisabled (s.also m) = (rxExitDisabled s).map (·.also m) := by
  have asked : rxEnabling (s.also m) = (rxEnabling s).also m := by
    simp only [rxEnabling, State.also_issue, State.also_cipherSetLinkFailCallback, State.also_cipherSetRiUpdateCallback]
  rw [rxExitDisabled_eq, rxExitDisabled_eq, asked, also_rxLocalKsv]
  generalize rxLocalKsv (rxEnabling s) = k
  refine bind_commutes (State.also_portWrite m k.2 _ _) fun r => ?_
  simp only [alsoSnd, State.also_portSetAuthCallback, State.also_issue, map_ok]

theorem also_rxStartComputations :
    rxStartComputations (s.also m) = (rxStartComputations s).map (alsoSnd m) := by
  refine bind_commutes (s.also_portRead m _ _) fun ⟨r, t⟩ => ?_
  cases r with
  | none => rfl
  | some b1 =>
    refine bind_commutes (t.also_portRead m _ _) fun ⟨r, u⟩ => ?_
    cases r with
    | none => rfl
    | some b2 =>
      have asks (k : Wide) : ((u.also m).issue (.cipherSetRemoteKsv k)).portIsRepeater =
          alsoSnd m (u.issue (.cipherSetRemoteKsv k)).portIsRepeater := ((u.issue _).issue _).also_draw m _ _ _
      simp only [alsoSnd, rxLoadCipher, asks]
      rfl

theorem also_rxExit (st : RxState) : rxExit st (s.also m) = (rxExit st s).map (·.also m) := by
  cases st with
  | disabled => exact also_rxExitDisabled m s
  | unauthenticated | computations | authenticated | linkIntegrityFailed | phyDown => rfl

theorem also_rxEnter (st : RxState) : rxEnter st (s.also m) = (rxEnter st s).map (alsoSnd m) := by
  cases st with
  | computations => exact also_rxStartComputations m s
  | authenticated => exact congrArg (fun t => Except.ok (_, t)) (also_rxArmLinkCheck m s)
  | disabled | unauthenticated | linkIntegrityFailed | phyDown => rfl

theorem also_rxRunPoll (st : RxState) : rxRunPoll st (s.also m) = (rxRunPoll st s).map (alsoSnd m) := by
  cases st with
  | computations =>
    have asks : (s.also m).cipherIsRequestComplete = alsoSnd m s.cipherIsRequestComplete :=
      (s.issue _).also_draw m _ _ _
    simp only [rxRunPoll, asks, alsoSnd]
    split
    · exact bind_commutes (also_publishRiRo m _) fun _ => rfl
    · rfl
  | disabled | unauthenticated | authenticated | linkIntegrityFailed | phyDown => rfl

theorem also_rxRun (e : RxEvent) (st : RxState) : rxRun e st (s.also m) = (rxRun e st s).map (alsoSnd m) := by
  cases e with
  | authenticate =>
    cases st with
    | computations => exact also_rxStartComputations m s
    | _ => rfl
  | check =>
    cases st with
    | authenticated | linkIntegrityFailed => exact also_checkLinkIntegrity m s
    | _ => rfl
  | poll => exact also_rxRunPoll m s st
  | updateRi =>
    cases st with
    | authenticated =>
      simp only [rxRun, rxRunUpdateRi, State.also_params]
      cases s.params.protocol
      · exact map_commutes (also_updateRi m s) fun _ => rfl
      · rfl
    | _ => rfl
  | disable | enable | phyDown | phyUp => cases st <;> rfl

theorem also_rxChain (bound : Nat) (cur next : RxState) :
    rxChain bound cur next (s.also m) = (rxChain bound cur next s).map (·.also m) := by
  induction bound generalizing cur next s with
  | zero => unfold rxChain; split <;> rfl
  | succ bound ih =>
    unfold rxChain
    split
    · rfl
    · exact bind_commutes (also_rxExit m s cur) fun t =>
        bind_commutes (also_rxEnter m t next) fun ⟨after, u⟩ => ih (u.moveRx next) next after

theorem also_rxDispatch (e : RxEvent) : rxDispatch e (s.also m) = (rxDispatch e s).map (·.also m) := by
  have phy : (s.also m).updatePhyRx e = (s.updatePhyRx e).also m := by cases e <;> rfl
  unfold rxDispatch
  dsimp only
  rw [phy]
  refine bind_same_commutes (x := rxCurrent (s.updatePhyRx e)) fun cur => ite_commutes rfl ?_
  exact bind_commutes (also_rxRun m _ e cur) fun ⟨next, t⟩ => also_rxChain m t chainBound cur next

end

/-- Settles O10: a post that suppresses nothing sets bits, and every part of a dispatch commutes with that. -/
theorem interruptPostsCommuteWithDispatch : Obligations.InterruptPostsCommuteWithDispatch := by
  refine fun s e quiet => ⟨fun ev => ?_, fun ev => ?_⟩
  · simp only [State.post_eq_also quiet]
    exact also_txDispatch ⟨e.mask, id⟩ s ev
  · simp only [State.post_eq_also quiet]
    exact also_rxDispatch ⟨e.mask, id⟩ s ev

end Sys2Proof.Machine
end

section
/-! The statements of 20_memory.md, 43_tx_procedures.md and 45_linkcheck.md about transfers, data and single
procedures. -/

namespace Sys2Proof.Machine

/-! ## Requests and answers gathered (20_memory.md R64 to R74) -/

/-- `s` after it issued the requests `rs` and took `n` answers, with the answers `a` still listed. -/
def State.asked (s : State) (rs : List Request) (n : Nat) (a : Answers) : State :=
  { s with answers := a, draws := s.draws + n, requests := s.requests ++ rs }

section
variable (s : State) (rs : List Request) (n : Nat) (a : Answers)

@[simp] theorem State.asked_params : (s.asked rs n a).params = s.params := rfl
@[simp] theorem State.asked_tx : (s.asked rs n a).tx = s.tx := rfl
@[simp] theorem State.asked_rx : (s.asked rs n a).rx = s.rx := rfl
@[simp] theorem State.asked_pendingEvents : (s.asked rs n a).pendingEvents = s.pendingEvents := rfl
@[simp] theorem State.asked_phyUp : (s.asked rs n a).phyUp = s.phyUp := rfl
@[simp] theorem State.asked_timer : (s.asked rs n a).timer = s.timer := rfl
@[simp] theorem State.asked_callbacks : (s.asked rs n a).callbacks = s.callbacks := rfl
@[simp] theorem State.asked_answers : (s.asked rs n a).answers = a := rfl

@[simp] theorem State.asked_asked (rs' : List Request) (n' : Nat) (a' : Answers) :
    (s.asked rs n a).asked rs' n' a' = s.asked (rs ++ rs') (n + n') a' := by
  simp [State.asked, Nat.add_assoc]

@[simp] theorem State.setTx_asked (r : TxRegs) : (s.setTx r).asked rs n a = (s.asked rs n a).setTx r := rfl

@[simp] theorem State.setRx_asked (r : RxRegs) : (s.setRx r).asked rs n a = (s.asked rs n a).setRx r := rfl

@[simp] theorem State.setTimer_asked (t : Option Nat) : (s.setTimer t).asked rs n a = (s.asked rs n a).setTimer t := rfl

theorem State.issue_eq_asked (r : Request) : s.issue r = s.asked [r] 0 s.answers := rfl

theorem State.issue_takeAnswer (r : Request) : (s.issue r).takeAnswer a = s.asked [r] 1 a := rfl

end

/-! ## Listed answers (20_memory.md R64 to R70): the first of its list is taken, the request is logged -/

section
variable {s : State}

theorem State.issue_draw_of_listed {α : Type} {l rest : List α} {v : α} {r : Request} {keep : List α → Answers}
    {free : Nat → α} (h : l = v :: rest) : (s.issue r).draw l keep free = (v, s.asked [r] 1 (keep rest)) := by
  rw [h, State.draw_cons, State.issue_takeAnswer]

theorem State.portIsCapable_of_listed {b : Bool} {l : List Bool} (h : s.answers.capable = b :: l) :
    s.portIsCapable = (b, s.asked [.portIsCapable] 1 { s.answers with capable := l }) :=
  State.issue_draw_of_listed h

theorem State.portIsRepeater_of_listed {b : Bool} {l : List Bool} (h : s.answers.repeater = b :: l) :
    s.portIsRepeater = (b, s.asked [.portIsRepeater] 1 { s.answers with repeater := l }) :=
  State.issue_draw_of_listed h

theorem State.cipherGetRi_of_listed {v : Half} {l : List Half} (h : s.answers.ri = v :: l) :
    s.cipherGetRi = (v, s.asked [.cipherGetRi] 1 { s.answers with ri := l }) :=
  State.issue_draw_of_listed h

theorem State.cipherGetRo_of_listed {v : Half} {l : List Half} (h : s.answers.ro = v :: l) :
    s.cipherGetRo = (v, s.asked [.cipherGetRo] 1 { s.answers with ro := l }) :=
  State.issue_draw_of_listed h

theorem State.cipherGetMi_of_listed {v : Wide} {l : List Wide} (h : s.answers.mi = v :: l) :
    s.cipherGetMi = (v, s.asked [.cipherGetMi] 1 { s.answers with mi := l }) :=
  State.issue_draw_of_listed h

theorem State.cipherGetMo_of_listed {v : Wide} {l : List Wide} (h : s.answers.mo = v :: l) :
    s.cipherGetMo = (v, s.asked [.cipherGetMo] 1 { s.answers with mo := l }) :=
  State.issue_draw_of_listed h

theorem State.cipherGetLocalKsv_of_listed {v : Wide} {l : List Wide} (h : s.answers.localKsv = v :: l) :
    s.cipherGetLocalKsv = (v, s.asked [.cipherGetLocalKsv] 1 { s.answers with localKsv := l }) :=
  State.issue_draw_of_listed h

theorem State.cipherIsLinkUp_of_listed {b : Bool} {l : List Bool} (h : s.answers.linkUp = b :: l) :
    s.cipherIsLinkUp = (b, s.asked [.cipherIsLinkUp] 1 { s.answers with linkUp := l }) :=
  State.issue_draw_of_listed h

theorem State.cipherIsRequestComplete_of_listed {b : Bool} {l : List Bool} (h : s.answers.complete = b :: l) :
    s.cipherIsRequestComplete =
      (b, s.asked [.cipherIsRequestComplete] 1 { s.answers with complete := l }) :=
  State.issue_draw_of_listed h

theorem State.isKsvRevoked_of_listed {b : Bool} {l : List Bool} (hook : s.params.hooks.isKsvRevoked = true)
    (h : s.answers.revoked = b :: l) (k : Wide) :
    s.isKsvRevoked k = (b, s.asked [.isKsvRevoked k] 1 { s.answers with revoked := l }) :=
  (if_pos hook).trans (State.issue_draw_of_listed h)

theorem State.isKsvRevoked_of_no_hook (hook : s.params.hooks.isKsvRevoked = false) (k : Wide) :
    s.isKsvRevoked k = (false, s) := by
  simp [State.isKsvRevoked, hook]

/-! ## Transfers (20_memory.md R64, R65) -/

theorem transferred_short {n : Nat} {k : Int} (h : k < n) : transferred n k = .ok false := by
  rw [transferred, if_neg (by omega)]
  simp [Int.ne_of_lt h]

theorem transferred_whole {n : Nat} {k : Int} (h : k = n) : transferred n k = .ok true := by
  simp [transferred, h]

theorem transferred_over {n : Nat} {k : Int} (h : n < k) : transferred n k = .error .countExceedsRequest := if_pos h

/-- `s` after the requests `rs`, each answered by a read, with the reads `rest` still listed. -/
def State.afterReads (s : State) (rs : List Request) (rest : List ReadAnswer) : State :=
  s.asked rs rs.length { s.answers with reads := rest }

theorem State.afterReads_afterReads (s : State) (rs rs' : List Request) (l l' : List ReadAnswer) :
    (s.afterReads rs l).afterReads rs' l' = s.afterReads (rs ++ rs') l' := by
  simp [State.afterReads, State.asked_asked]

section
variable {off : Byte} {n : Nat} {r : ReadAnswer} {l : List ReadAnswer} (h : s.answers.reads = r :: l)
include h

theorem State.portRead_of_listed :
    s.portRead off n = (transferred n r.count).map fun ok =>
      (if ok then some (delivered n r.bytes s.draws) else none, s.afterReads [.portRead off n] l) := by
  rw [State.portRead, State.issue_draw_of_listed h]
  cases transferred n r.count <;> rfl

theorem State.portRead_short (short : r.count < n) :
    s.portRead off n = .ok (none, s.afterReads [.portRead off n] l) := by
  rw [State.portRead_of_listed h, transferred_short short]
  rfl

theorem State.portRead_whole (count : r.count = n) (length : r.bytes.length = n) :
    s.portRead off n = .ok (some r.bytes, s.afterReads [.portRead off n] l) := by
  rw [State.portRead_of_listed h, transferred_whole count, map_ok, if_pos rfl, ← length, delivered_eq]

omit h in
theorem State.portRead_wholeRead {b : List Byte} (h : s.answers.reads = wholeRead b :: l) (length : b.length = n) :
    s.portRead off n = .ok (some b, s.afterReads [.portRead off n] l) :=
  State.portRead_whole h (congrArg _ length) length

theorem State.portRead_over (more : n < r.count) : s.portRead off n = .error .countExceedsRequest := by
  rw [State.portRead_of_listed h, transferred_over more]
  rfl

end

section
variable {off : Byte} {b : List Byte} {k : Int} {l : List Int} (h : s.answers.writes = k :: l)
include h

theorem State.portWrite_of_listed :
    s.portWrite off b = (transferred b.length k).map fun ok =>
      (ok, s.asked [(.portWrite off b)] 1 { s.answers with writes := l }) := by
  rw [State.portWrite, State.issue_draw_of_listed h]
  cases transferred b.length k <;> rfl

theorem State.portWrite_short (short : k < b.length) :
    s.portWrite off b = .ok (false, s.asked [(.portWrite off b)] 1 { s.answers with writes := l }) := by
  rw [State.portWrite_of_listed h, transferred_short short]
  rfl

theorem State.portWrite_whole (count : k = b.length) :
    s.portWrite off b = .ok (true, s.asked [(.portWrite off b)] 1 { s.answers with writes := l }) := by
  rw [State.portWrite_of_listed h, transferred_whole count]
  rfl

/-- A write within the contract only logs and takes its answer, whether complete or not. -/
theorem State.portWrite_within (within : k ≤ b.length) :
    s.portWrite off b = .ok (decide (k = b.length),
      s.asked [(.portWrite off b)] 1 { s.answers with writes := l }) := by
  rcases Int.lt_or_eq_of_le within with short | whole
  · rw [State.portWrite_short h short, decide_eq_false (Int.ne_of_lt short)]
  · rw [State.portWrite_whole h whole, decide_eq_true whole]

theorem State.portWrite_over (more : b.length < k) : s.portWrite off b = .error .countExceedsRequest := by
  rw [State.portWrite_of_listed h, transferred_over more]
  rfl

end

end

/-- Settles O47: a listed answer decides the transfer. -/
theorem transfersSucceedExactlyWhenWhole : Obligations.TransfersSucceedExactlyWhenWhole := by
  refine ⟨fun s off n r a listed => ?_, fun s off l k a listed => ?_⟩
  · have reads : s.answers.reads = r :: a.reads := by rw [listed]
    have rest : s.afterReads [.portRead off n] a.reads = { s with
        answers := a, draws := s.draws + 1, requests := s.requests ++ [.portRead off n] } := by
      rw [State.afterReads, listed]; rfl
    rw [← rest]
    exact ⟨State.portRead_short reads, State.portRead_whole reads, State.portRead_over reads⟩
  · have writes : s.answers.writes = k :: a.writes := by rw [listed]
    have rest : s.asked [(.portWrite off l)] 1 { s.answers with writes := a.writes } = { s with
        answers := a, draws := s.draws + 1, requests := s.requests ++ [.portWrite off l] } := by
      rw [listed]; rfl
    rw [← rest]
    exact ⟨State.portWrite_short writes, State.portWrite_whole writes, State.portWrite_over writes⟩

/-! ## Bytes and B registers (00_scope.md R10, 30_encoding.md R101) -/

@[simp] theorem leBytes_length {w : Nat} (n : Nat) (v : BitVec w) : (leBytes n v).length = n := by
  induction n generalizing v with
  | zero => rfl
  | succ n ih => rw [leBytes, List.length_cons, ih]

theorem leBytes_eq_map {w : Nat} (n : Nat) (v : BitVec w) :
    leBytes n v = (List.range n).map fun i => v.extractLsb' (8 * i) 8 := by
  induction n generalizing v with
  | zero => rfl
  | succ n ih =>
    rw [leBytes, ih, List.range_succ_eq_map, List.map_cons, List.map_map]
    congr 1
    · ext i hi; simp
    · refine List.map_congr_left fun i _ => ?_
      ext j hj
      simp [Nat.mul_succ, Nat.add_comm, Nat.add_left_comm]

/-- Bit `8 j + k` of `unLE` is bit `k` of byte `j`. -/
theorem unLE_getLsbD {w : Nat} (b : List Byte) (j k : Nat) (hk : k < 8) (hw : 8 * j + k < w) :
    (unLE w b).getLsbD (8 * j + k) = (b.getD j 0#8).getLsbD k := by
  induction b generalizing j with
  | nil => simp [unLE]
  | cons a b ih =>
    cases j with
    | zero =>
      rw [Nat.mul_zero, Nat.zero_add] at hw ⊢
      simp [unLE, hw, hk]
    | succ j =>
      have below : 8 * j + k < w := by omega
      have shift : 8 * (j + 1) + k - 8 = 8 * j + k := by omega
      have above : a.getLsbD (8 * (j + 1) + k) = false := BitVec.getLsbD_of_ge _ _ (by omega)
      have high : ¬ 8 * (j + 1) + k < 8 := by omega
      have tail := ih j below
      rw [BitVec.getLsbD_eq_getElem below] at tail
      simp [unLE, hw, above, high, shift, tail]

theorem unLE_leBytes (n : Nat) (v : BitVec (8 * n)) : unLE (8 * n) (leBytes n v) = v := by
  refine BitVec.eq_of_getLsbD_eq fun i hi => ?_
  have hk : i % 8 < 8 := Nat.mod_lt _ (by decide)
  have hj : i / 8 < n := by omega
  have split : 8 * (i / 8) + i % 8 = i := Nat.div_add_mod i 8
  calc (unLE (8 * n) (leBytes n v)).getLsbD i
      = (unLE (8 * n) (leBytes n v)).getLsbD (8 * (i / 8) + i % 8) := by rw [split]
    _ = ((leBytes n v).getD (i / 8) 0#8).getLsbD (i % 8) := unLE_getLsbD _ _ _ hk (by omega)
    _ = v.getLsbD (8 * (i / 8) + i % 8) := by simp [leBytes_eq_map, hj, hk]
    _ = v.getLsbD i := by rw [split]

theorem leBytes_unLE (b : List Byte) : leBytes b.length (unLE (8 * b.length) b) = b := by
  rw [leBytes_eq_map]
  refine List.ext_getElem (by simp) fun j hj hb => ?_
  rw [List.getElem_map, List.getElem_range]
  refine BitVec.eq_of_getLsbD_eq fun k hk => ?_
  have bit := unLE_getLsbD (w := 8 * b.length) b j k hk (by omega)
  simp [hk, bit, hb]

theorem bRegisters_join (an : Wide) (rep : Bool) :
    (bRegZ an rep).extractLsb' 0 8 ++ (bRegY an).extractLsb' 0 28 ++ (bRegX an).extractLsb' 0 28 = an := by
  have x : (bRegX an).extractLsb' 0 28 = an.extractLsb' 0 28 := by
    ext i hi; simp [bRegX, show i < 32 by omega, hi]
  have y : (bRegY an).extractLsb' 0 28 = an.extractLsb' 28 28 := by
    ext i hi; simp [bRegY, show i < 32 by omega, hi]
  have z : (bRegZ an rep).extractLsb' 0 8 = an.extractLsb' 56 8 := by
    ext i hi; simp [bRegZ, show i < 32 by omega, hi]
  rw [x, y, z]
  ext i hi
  rw [BitVec.getElem_append]
  split
  · simp [BitVec.getLsbD_eq_getElem hi]
  · rw [BitVec.getElem_append]
    split
    · rw [BitVec.getElem_extractLsb', show 28 + (i - 28) = i by omega, BitVec.getLsbD_eq_getElem hi]
    · rw [BitVec.getElem_extractLsb', show 56 + (i - 28 - 28) = i by omega, BitVec.getLsbD_eq_getElem hi]

/-- Settles O49: byte `i` is bits `8 i` to `8 i + 7`, and each B register a field of `An`. -/
theorem portBytesAndBRegistersLoseNothing : Obligations.PortBytesAndBRegistersLoseNothing := by
  refine ⟨fun w n v => leBytes_eq_map n v, unLE_leBytes, fun n b hb => ?_, fun an rep =>
    ⟨bRegisters_join an rep, ?_, ?_, ?_, ?_⟩⟩
  · subst hb; exact leBytes_unLE b
  · simp [bRegZ]
  · ext i hi
    simp [bRegZ, show ¬ 9 + i < 8 by omega, show 9 + i - 8 ≠ 0 by omega]
  · ext i hi; simp [bRegY]
  · ext i hi; simp [bRegX]

end Sys2Proof.Machine
end

section
/-! The statements of 43_tx_procedures.md and 45_linkcheck.md about single procedures: `GenerateAn`, `ExchangeKsvs`, the
KSV list and the comparisons. -/

namespace Sys2Proof.Machine

/-! ## `GenerateAn()` (43_tx_procedures.md R213) -/

/-- A listed "complete" ends the wait, after the "not complete" answers before it. -/
theorem State.awaitCipher_of_listed (n : Nat) (cs : List Bool) (s : State) :
    State.awaitCipher (List.replicate n false ++ true :: cs) s =
      .ok (s.asked (List.replicate (n + 1) .cipherIsRequestComplete) (n + 1) { s.answers with complete := cs }) := by
  induction n generalizing s with
  | zero => rfl
  | succ n ih =>
    rw [List.replicate_succ, List.cons_append, State.awaitCipher, State.issue_takeAnswer, if_neg Bool.false_ne_true,
      ih, State.asked_asked, List.replicate_succ (n := n + 1), Nat.add_comm 1]
    rfl

theorem generateAn_of_listed {s : State} {n : Nat} {m : Wide} {cs : List Bool} {l : List Wide}
    (complete : s.answers.complete = List.replicate n false ++ true :: cs) (mi : s.answers.mi = m :: l) :
    generateAn s = .ok (State.setAn
      (s.asked ([.cipherDoRequest .rng] ++ List.replicate (n + 1) .cipherIsRequestComplete ++ [.cipherGetMi]) (n + 2)
        { s.answers with complete := cs, mi := l })
      (if m = 0#64 then s.params.literals.anFallback else m)) := by
  rw [generateAn, State.issue_eq_asked, State.asked_answers, complete, State.awaitCipher_of_listed, ok_bind,
    State.cipherGetMi_of_listed (v := m) (l := l), State.asked_asked, State.asked_asked, Nat.zero_add]
  · rfl
  · exact mi

/-- `GenerateAn` asks, and writes `An` only. -/
theorem generateAn_asks {s t : State} (h : generateAn s = .ok t) :
    ∃ u, s.asks u ∧ t = { u with tx := { s.tx with an := t.tx.an } } := by
  unfold generateAn at h
  obtain ⟨u, wait, h⟩ := bind_eq_ok h
  cases h
  have asked : s.asks u.cipherGetMi.2 :=
    State.asks_trans (State.asks_trans (s.asks_issue _) (State.awaitCipher_spec wait)) u.asks_cipherGetMi
  refine ⟨u.cipherGetMi.2, asked, ?_⟩
  rw [← State.asks_tx asked]
  rfl

/-- Settles O51: a zero answer is replaced by the fallback, and a listed "complete" ends the wait. -/
theorem generateAnIsNeverZero : Obligations.GenerateAnIsNeverZero := by
  refine ⟨fun s t h => ⟨(generateAn_spec h).2, generateAn_asks h⟩, fun s n m a listed => ?_⟩
  have complete : s.answers.complete = List.replicate n false ++ true :: a.complete := by rw [listed]
  have mi : s.answers.mi = m :: a.mi := by rw [listed]
  have rest : { s.answers with complete := a.complete, mi := a.mi } = a := by rw [listed]
  rw [generateAn_of_listed complete mi, rest]
  simp [State.asked, State.setAn, State.setTx, Nat.add_assoc]

/-! ## `DetermineRxCapable()` and `ExchangeKsvs()` (43_tx_procedures.md R210 to R212) -/

theorem State.setCheckLinkState_eq (s : State) (b : Bool) :
    s.setCheckLinkState b = s.asked (armRequests b) 0 s.answers := by
  rw [State.setCheckLinkState, State.issue_eq_asked, State.issue_eq_asked, State.asked_asked]
  rfl

theorem determineRxCapable_of_listed {s : State} {b : Bool} {l : List Bool} (h : s.answers.capable = b :: l) :
    determineRxCapable s = (if b then .exchangeKsvs else .unauthenticated,
      s.asked (disarmRequests ++ [.portIsCapable]) 1 { s.answers with capable := l }) := by
  rw [determineRxCapable, State.setCheckLinkState_eq, State.issue_eq_asked, State.asked_asked,
    State.portIsCapable_of_listed (b := b) (l := l), State.asked_asked]
  · rfl
  · exact h

section
variable {s t : State}

theorem exchangeKsvs_of_short (h : s.portRead s.params.portMap.bksv s.params.literals.ksvBytes = .ok (none, t)) :
    exchangeKsvs s = .ok (.unauthenticated, t.readFailure) := by
  rw [exchangeKsvs, h, ok_bind]

theorem exchangeKsvs_of_read {b : List Byte}
    (h : s.portRead s.params.portMap.bksv s.params.literals.ksvBytes = .ok (some b, t)) :
    exchangeKsvs s = exchangeWith (unLE 64 b) t := by
  rw [exchangeKsvs, h, ok_bind]

variable {bksv : Wide}

theorem exchangeWith_of_invalid (h : isValidKsv s.params.literals bksv = false) :
    exchangeWith bksv s = .ok (.unauthenticated, s) := by
  rw [exchangeWith, h, if_neg Bool.false_ne_true]

theorem exchangeWith_of_revoked (valid : isValidKsv s.params.literals bksv = true)
    (h : s.isKsvRevoked bksv = (true, t)) : exchangeWith bksv s = .ok (.unauthenticated, t) := by
  simp only [exchangeWith, valid, h, if_pos]

theorem exchangeWith_of_good (valid : isValidKsv s.params.literals bksv = true)
    (h : s.isKsvRevoked bksv = (false, t)) :
    exchangeWith bksv s =
      generateAn (t.portIsRepeater.2.setIsRepeater t.portIsRepeater.1) >>= sendAnAksv bksv := by
  rw [exchangeWith, if_pos valid, h, if_neg Bool.false_ne_true]

end

section
variable {s : State} {bksv m : Wide} {w : Int} {ws : List Int} {l : List Wide}

theorem sendAnAksv_of_short_an (writes : s.answers.writes = w :: ws) (short : w < s.params.literals.anBytes) :
    sendAnAksv bksv s = .ok (.unauthenticated, State.readFailure
      (s.asked [.portWrite s.params.portMap.an (leBytes s.params.literals.anBytes s.tx.an)] 1
        { s.answers with writes := ws })) := by
  rw [sendAnAksv, State.portWrite_short writes (by rwa [leBytes_length]), ok_bind]
  rfl

/-- `s` once `An` is written and the local KSV read, with `ws` and `l` left of the answers about them. -/
def State.afterAnWrite (s : State) (ws : List Int) (l : List Wide) : State :=
  s.asked [.portWrite s.params.portMap.an (leBytes s.params.literals.anBytes s.tx.an), .cipherGetLocalKsv] 2
    { s.answers with writes := ws, localKsv := l }

/-- `AN` written whole, the write of `AKSV` decides. -/
theorem sendAnAksv_of_whole_an (writes : s.answers.writes = (s.params.literals.anBytes : Int) :: ws)
    (ksv : s.answers.localKsv = m :: l) :
    sendAnAksv bksv s =
      (s.afterAnWrite ws l).portWrite s.params.portMap.aksv (leBytes s.params.literals.ksvBytes m) >>= fun r =>
        if r.1 then .ok (.computations, r.2.issue (.cipherSetRemoteKsv bksv))
        else .ok (.unauthenticated, r.2.readFailure) := by
  rw [sendAnAksv, State.portWrite_whole writes (by rw [leBytes_length]), ok_bind]
  simp only [if_pos]
  rw [State.cipherGetLocalKsv_of_listed (v := m) (l := l), State.asked_asked]
  · rfl
  · exact ksv

end

/-- Settles O50: each refusal is the first answer that stops its part; short transfers alone count. -/
theorem exchangeRefusalsCountShortTransfersOnly : Obligations.ExchangeRefusalsCountShortTransfersOnly := by
  intro s a
  refine ⟨fun listed => ?_, fun r listed short => ?_, fun b length listed invalid => ?_,
    fun b length hook listed valid => ?_, fun k w short listed => ?_, fun k m w short listed => ?_⟩
  · have capable : s.answers.capable = false :: a.capable := by rw [listed]
    rw [determineRxCapable_of_listed capable, listed, State.asked, List.append_assoc]
    rfl
  · have reads : s.answers.reads = r :: a.reads := by rw [listed]
    rw [exchangeKsvs_of_short (State.portRead_short reads short), State.afterReads, listed]
    rfl
  · have reads : s.answers.reads = wholeRead b :: a.reads := by rw [listed]
    rw [exchangeKsvs_of_read (State.portRead_wholeRead reads length), exchangeWith_of_invalid, State.afterReads, listed]
    · rfl
    · exact invalid
  · have reads : s.answers.reads = wholeRead b :: a.reads := by rw [listed]
    have revoked : s.answers.revoked = true :: a.revoked := by rw [listed]
    rw [exchangeKsvs_of_read (State.portRead_wholeRead reads length), exchangeWith_of_revoked]
    case valid => exact valid
    rw [State.isKsvRevoked_of_listed (b := true) (l := a.revoked), State.afterReads, State.asked_asked, listed]
    · rfl
    · exact hook
    · exact revoked
  · have writes : s.answers.writes = w :: a.writes := by rw [listed]
    rw [sendAnAksv_of_short_an writes short, listed]
    rfl
  · have writes : s.answers.writes = (s.params.literals.anBytes : Int) :: w :: a.writes := by rw [listed]
    have ksv : s.answers.localKsv = m :: a.localKsv := by rw [listed]
    rw [sendAnAksv_of_whole_an writes ksv, State.portWrite_short (l := a.writes) rfl (by rwa [leBytes_length]), ok_bind,
      if_neg Bool.false_ne_true, State.afterAnWrite, listed]
    simp [State.readFailure, State.setTx, State.asked, bump]

/-! ## The reads of a KSV list (43_tx_procedures.md R219) -/

@[simp] theorem chunkSizes_zero (chunk : Nat) : chunkSizes chunk 0 = [] := by simp [chunkSizes]

/-- The first read takes a full chunk or all that is left, and the others read the rest. -/
theorem chunkSizes_of_pos {chunk left : Nat} (hc : 1 ≤ chunk) (hl : 0 < left) :
    chunkSizes chunk left = min chunk left :: chunkSizes chunk (left - min chunk left) := by
  rcases Nat.lt_or_ge left chunk with last | more
  · have all : min chunk left = left := Nat.min_eq_right (Nat.le_of_lt last)
    rw [all, Nat.sub_self, chunkSizes_zero]
    simp [chunkSizes, Nat.div_eq_of_lt last, Nat.mod_eq_of_lt last, Nat.ne_of_gt hl]
  · obtain ⟨rest, rfl⟩ := Nat.exists_eq_add_of_le' more
    simp [chunkSizes, Nat.add_div_right rest hc, List.replicate_succ]

theorem chunkSizes_sum (chunk total : Nat) : (chunkSizes chunk total).sum = total := by
  have divMod := Nat.div_add_mod' total chunk
  unfold chunkSizes
  split
  · next none => simpa [none] using divMod
  · simpa using divMod

theorem chunkSizes_length {chunk : Nat} (hc : 1 ≤ chunk) (total : Nat) :
    (chunkSizes chunk total).length = (total + chunk - 1) / chunk := by
  have divMod := Nat.div_add_mod total chunk
  have below := Nat.mod_lt total hc
  unfold chunkSizes
  split
  · next none =>
    have : total + chunk - 1 = chunk * (total / chunk) + (chunk - 1) := by omega
    rw [this, Nat.mul_add_div hc, Nat.div_eq_of_lt (Nat.sub_lt hc Nat.one_pos)]
    simp
  · next some =>
    have next := Nat.mul_succ chunk (total / chunk)
    have : total + chunk - 1 = chunk * (total / chunk).succ + (total % chunk - 1) := by omega
    rw [this, Nat.mul_add_div hc, Nat.div_eq_of_lt (show total % chunk - 1 < chunk by omega)]
    simp

theorem mem_chunkSizes {chunk total n : Nat} (hc : 1 ≤ chunk) (h : n ∈ chunkSizes chunk total) :
    1 ≤ n ∧ n ≤ chunk := by
  have below := Nat.mod_lt total hc
  unfold chunkSizes at h
  rcases List.mem_append.1 h with full | last
  · rw [List.eq_of_mem_replicate full]
    exact ⟨hc, Nat.le_refl _⟩
  · split at last
    · cases last
    · rw [List.mem_singleton.1 last]
      omega

section
variable {fuel left : Nat} {acc : List Byte} {s s1 : State}

theorem readKsvFifo_succ_of_short
    (h : s.portRead s.params.portMap.ksvFifo (min s.params.ksvChunk (left + 1)) = .ok (none, s1)) :
    readKsvFifo (fuel + 1) (left + 1) acc s = .ok (none, s1.readFailure) := by
  rw [readKsvFifo, h, ok_bind]

/-- What the reads of sizes `sizes` from the FIFO ask. -/
def fifoReads (p : Params) (sizes : List Nat) : List Request := sizes.map (.portRead p.portMap.ksvFifo)

theorem readKsvFifo_succ_of_whole {b : List Byte} {l : List ReadAnswer} (reads : s.answers.reads = wholeRead b :: l)
    (length : b.length = min s.params.ksvChunk (left + 1)) :
    readKsvFifo (fuel + 1) (left + 1) acc s =
      readKsvFifo fuel (left + 1 - min s.params.ksvChunk (left + 1)) (acc ++ b)
        (s.afterReads (fifoReads s.params [min s.params.ksvChunk (left + 1)]) l) := by
  rw [readKsvFifo, State.portRead_wholeRead reads length, ok_bind]
  rfl

end

/-- With every read whole, the list is what they deliver. -/
theorem readKsvFifo_whole {fuel left : Nat} {acc : List Byte} {s : State} {bs : List (List Byte)}
    {rest : List ReadAnswer} (hc : 1 ≤ s.params.ksvChunk) (enough : left ≤ fuel)
    (sizes : bs.map List.length = chunkSizes s.params.ksvChunk left)
    (reads : s.answers.reads = bs.map wholeRead ++ rest) :
    readKsvFifo fuel left acc s = .ok (some (acc ++ bs.flatten),
      s.afterReads (fifoReads s.params (chunkSizes s.params.ksvChunk left)) rest) := by
  induction bs generalizing fuel left acc s with
  | nil =>
    rcases Nat.eq_zero_or_pos left with rfl | pos
    · rw [readKsvFifo]
      rw [List.map_nil, List.nil_append] at reads
      simp [fifoReads, State.afterReads, State.asked, ← reads]
    · rw [chunkSizes_of_pos hc pos] at sizes
      cases sizes
  | cons b bs ih =>
    cases left with
    | zero => rw [chunkSizes_zero] at sizes; cases sizes
    | succ left =>
      obtain ⟨fuel, rfl⟩ := Nat.exists_eq_add_one_of_ne_zero (Nat.ne_of_gt (Nat.lt_of_lt_of_le left.succ_pos enough))
      rw [chunkSizes_of_pos hc (show 0 < left + 1 from left.succ_pos)] at sizes ⊢
      obtain ⟨length, sizes⟩ := List.cons.inj sizes
      have less : left + 1 - min s.params.ksvChunk (left + 1) ≤ fuel := by omega
      rw [readKsvFifo_succ_of_whole reads length, ih, State.afterReads_afterReads, List.append_assoc]
      · rfl
      · exact hc
      · exact less
      · exact sizes
      · rfl

/-- The first short read ends the list, counted once. -/
theorem readKsvFifo_short {fuel left m : Nat} {acc : List Byte} {s : State} {bs : List (List Byte)}
    {r : ReadAnswer} {rest : List ReadAnswer} (hc : 1 ≤ s.params.ksvChunk) (enough : left ≤ fuel)
    (sizes : bs.map List.length = (chunkSizes s.params.ksvChunk left).take bs.length)
    (next : (chunkSizes s.params.ksvChunk left)[bs.length]? = some m) (short : r.count < m)
    (reads : s.answers.reads = bs.map wholeRead ++ r :: rest) :
    readKsvFifo fuel left acc s = .ok (none, State.readFailure
      (s.afterReads (fifoReads s.params ((chunkSizes s.params.ksvChunk left).take (bs.length + 1))) rest)) := by
  induction bs generalizing fuel left acc s with
  | nil =>
    cases left with
    | zero => rw [chunkSizes_zero] at next; cases next
    | succ left =>
      obtain ⟨fuel, rfl⟩ := Nat.exists_eq_add_one_of_ne_zero (Nat.ne_of_gt (Nat.lt_of_lt_of_le left.succ_pos enough))
      rw [chunkSizes_of_pos hc (show 0 < left + 1 from left.succ_pos)] at next ⊢
      cases next
      exact readKsvFifo_succ_of_short (State.portRead_short reads short)
  | cons b bs ih =>
    cases left with
    | zero => rw [chunkSizes_zero] at next; cases next
    | succ left =>
      obtain ⟨fuel, rfl⟩ := Nat.exists_eq_add_one_of_ne_zero (Nat.ne_of_gt (Nat.lt_of_lt_of_le left.succ_pos enough))
      rw [chunkSizes_of_pos hc (show 0 < left + 1 from left.succ_pos)] at sizes next ⊢
      obtain ⟨length, sizes⟩ := List.cons.inj sizes
      have less : left + 1 - min s.params.ksvChunk (left + 1) ≤ fuel := by omega
      rw [readKsvFifo_succ_of_whole reads length, ih, State.afterReads_afterReads]
      · rfl
      · exact hc
      · exact less
      · exact sizes
      · exact next
      · rfl

/-- Whatever the answers, the reads ask and either give the bytes asked for or count one failure. -/
theorem readKsvFifo_outcome {fuel left : Nat} {acc : List Byte} {s t : State} {r : Option (List Byte)}
    (h : readKsvFifo fuel left acc s = .ok (r, t)) :
    ∃ u, s.asks u ∧
      ((t = u ∧ ∃ l, r = some l ∧ l.length = acc.length + left) ∨ (t = u.readFailure ∧ r = none)) := by
  induction fuel, left, acc, s using readKsvFifo.induct with
  | case1 => rw [readKsvFifo] at h; cases h; exact ⟨_, State.asks_refl _, .inl ⟨rfl, _, rfl, rfl⟩⟩
  | case2 => cases h
  | case3 fuel left acc s m ih =>
    unfold readKsvFifo at h
    obtain ⟨⟨answer, s1⟩, read, h⟩ := bind_eq_ok h
    obtain ⟨asked, length⟩ := State.portRead_spec read
    cases answer with
    | none => cases h; exact ⟨s1, asked, .inr ⟨rfl, rfl⟩⟩
    | some b =>
      obtain ⟨u, asks, whole | short⟩ := ih b s1 h
      · obtain ⟨ends, l, hr, hl⟩ := whole
        refine ⟨u, State.asks_trans asked asks, .inl ⟨ends, l, hr, ?_⟩⟩
        have size := length b rfl
        rw [hl, List.length_append, size]
        omega
      · exact ⟨u, State.asks_trans asked asks, .inr short⟩

theorem State.portRead_fault {s : State} {off : Byte} {n : Nat} {f : Fault} (h : s.portRead off n = .error f) :
    f = .countExceedsRequest := by
  unfold State.portRead transferred at h
  simp only at h
  split at h
  · cases h; rfl
  · cases h

/-- With a chunk of at least 1 the fuel suffices, and only a count outside the contract faults. -/
theorem readKsvFifo_fault {fuel left : Nat} {acc : List Byte} {s : State} {f : Fault} (hc : 1 ≤ s.params.ksvChunk)
    (enough : left ≤ fuel) (h : readKsvFifo fuel left acc s = .error f) : f = .countExceedsRequest := by
  induction fuel, left, acc, s using readKsvFifo.induct with
  | case1 => rw [readKsvFifo] at h; cases h
  | case2 => omega
  | case3 fuel left acc s m ih =>
    unfold readKsvFifo at h
    cases read : s.portRead s.params.portMap.ksvFifo (min s.params.ksvChunk (left + 1)) with
    | error g =>
      simp only [read, error_bind] at h
      cases h
      exact State.portRead_fault read
    | ok r =>
      simp only [read, ok_bind] at h
      obtain ⟨answer, s1⟩ := r
      have params := State.asks_params (State.portRead_spec read).1
      cases answer with
      | none => cases h
      | some b => exact ih b s1 (params ▸ hc) (by omega) h

theorem State.readFailure_of_asks {s u : State} (h : s.asks u) : u.readFailure = { u with tx := { s.tx with
    stats := { s.tx.stats with readFailures := (s.tx.stats.readFailures + 1) % 2 ^ s.params.statWidth } } } := by
  obtain ⟨a, d, rs, rfl⟩ := h
  rfl

/-- Settles O53: the sizes by division, the reads one at a time. -/
theorem ksvListReadIsWholeInChunks : Obligations.KsvListReadIsWholeInChunks := by
  intro s total hc
  refine ⟨⟨chunkSizes_sum _ _, chunkSizes_length hc _, fun n => mem_chunkSizes hc⟩, fun bs a sizes listed => ?_,
    fun bs m r a sizes next short listed => ?_, fun r t h => ?_,
    fun f h => readKsvFifo_fault hc (Nat.le_refl _) h⟩
  · have reads : s.answers.reads = bs.map wholeRead ++ a.reads := by rw [listed]
    rw [readKsvFifo_whole hc (Nat.le_refl _) sizes reads, State.afterReads, listed]
    simp [fifoReads, State.asked]
  · have reads : s.answers.reads = bs.map wholeRead ++ r :: a.reads := by rw [listed]
    have more : bs.length < (chunkSizes s.params.ksvChunk total).length := (List.getElem?_eq_some_iff.1 next).1
    rw [readKsvFifo_short hc (Nat.le_refl _) sizes next short reads, State.afterReads, listed]
    simp [fifoReads, State.asked, State.readFailure, State.setTx, bump, Nat.min_eq_left more]
  · obtain ⟨u, asked, whole | short⟩ := readKsvFifo_outcome h
    · obtain ⟨ends, l, hr, hl⟩ := whole
      exact ⟨u, asked, .inl ⟨ends, l, hr, hl.trans (Nat.zero_add _)⟩⟩
    · exact ⟨u, asked, .inr ⟨short.1.trans (State.readFailure_of_asks asked), short.2⟩⟩

end Sys2Proof.Machine
end

section
/-! The statements of 43_tx_procedures.md and 45_linkcheck.md about the comparisons. -/

namespace Sys2Proof.Machine

/-! ## `V'` and the digest (43_tx_procedures.md R219, 30_encoding.md R104) -/

theorem sha1_length (m : List Byte) : (sha1 m).length = 5 := rfl

/-- The reads of the words at `offs`. -/
def wordReads (p : Params) (offs : List Byte) : List Request :=
  offs.map fun o => .portRead o p.literals.vPrimeWordBytes

section
variable {s : State} {off : Byte} {h : Word} {more : List (Byte × Word)} {l : List ReadAnswer}

theorem compareVPrime_cons_of_short {r : ReadAnswer} (reads : s.answers.reads = r :: l)
    (short : r.count < s.params.literals.vPrimeWordBytes) :
    compareVPrime ((off, h) :: more) s = .ok (false, (s.afterReads (wordReads s.params [off]) l).readFailure) := by
  rw [compareVPrime, State.portRead_short reads short, ok_bind]
  rfl

variable {b : List Byte} (reads : s.answers.reads = wholeRead b :: l)
  (length : b.length = s.params.literals.vPrimeWordBytes)
include reads length

theorem compareVPrime_cons_of_differs (differs : unLE 32 b ≠ h) :
    compareVPrime ((off, h) :: more) s = .ok (false, s.afterReads (wordReads s.params [off]) l) := by
  rw [compareVPrime, State.portRead_wholeRead reads length, ok_bind]
  exact if_neg differs

theorem compareVPrime_cons_of_equal (equal : unLE 32 b = h) :
    compareVPrime ((off, h) :: more) s = compareVPrime more (s.afterReads (wordReads s.params [off]) l) := by
  rw [compareVPrime, State.portRead_wholeRead reads length, ok_bind]
  exact if_pos equal

end

/-- With every word read equal, the comparison succeeds. -/
theorem compareVPrime_of_equal {s : State} {words : List (Byte × Word)} {v : List (List Byte)} {l : List ReadAnswer}
    (lengths : ∀ b ∈ v, b.length = s.params.literals.vPrimeWordBytes)
    (equal : v.map (unLE 32) = words.map Prod.snd) (reads : s.answers.reads = v.map wholeRead ++ l) :
    compareVPrime words s = .ok (true, s.afterReads (wordReads s.params (words.map Prod.fst)) l) := by
  induction words generalizing s v with
  | nil =>
    cases List.map_eq_nil_iff.1 equal
    rw [List.map_nil, List.nil_append] at reads
    simp [compareVPrime, wordReads, State.afterReads, State.asked, ← reads]
  | cons w words ih =>
    obtain ⟨b, v, rfl, head, tail⟩ := List.map_eq_cons_iff.1 equal
    rw [List.map_cons, List.cons_append] at reads
    have length := lengths b List.mem_cons_self
    have others := fun b hb => lengths b (List.mem_cons_of_mem _ hb)
    rw [compareVPrime_cons_of_equal reads length head, ih (s := s.afterReads _ _) others tail rfl,
      State.afterReads_afterReads]
    rfl

/-- The first word that differs ends the comparison. -/
theorem compareVPrime_of_differs {s : State} {words : List (Byte × Word)} {v : List (List Byte)} {i : Nat}
    {l : List ReadAnswer} (lengths : ∀ b ∈ v, b.length = s.params.literals.vPrimeWordBytes)
    (count : v.length = words.length) (hi : i < words.length)
    (equal : (v.map (unLE 32)).take i = (words.map Prod.snd).take i)
    (differs : (v.map (unLE 32))[i]? ≠ (words.map Prod.snd)[i]?)
    (reads : s.answers.reads = (v.take (i + 1)).map wholeRead ++ l) :
    compareVPrime words s =
      .ok (false, s.afterReads (wordReads s.params ((words.map Prod.fst).take (i + 1))) l) := by
  induction words generalizing s v i with
  | nil => cases hi
  | cons w words ih =>
    obtain ⟨b, v, rfl⟩ := List.exists_cons_of_length_eq_add_one count
    have length := lengths b List.mem_cons_self
    cases i with
    | zero =>
      have unequal : unLE 32 b ≠ w.2 := fun same => differs (congrArg some same)
      exact compareVPrime_cons_of_differs reads length unequal
    | succ i =>
      rw [List.take_succ_cons, List.map_cons, List.cons_append] at reads
      obtain ⟨head, tail⟩ := List.cons.inj equal
      have others := fun b hb => lengths b (List.mem_cons_of_mem _ hb)
      rw [compareVPrime_cons_of_equal reads length head,
        ih (s := s.afterReads _ _) others (Nat.succ.inj count) (Nat.lt_of_succ_lt_succ hi) tail differs rfl,
        State.afterReads_afterReads]
      rfl

/-- The first word read short ends the comparison, counted once. -/
theorem compareVPrime_of_short {s : State} {words : List (Byte × Word)} {v : List (List Byte)} {i : Nat}
    {r : ReadAnswer} {l : List ReadAnswer} (lengths : ∀ b ∈ v, b.length = s.params.literals.vPrimeWordBytes)
    (count : v.length = words.length) (hi : i < words.length)
    (equal : (v.map (unLE 32)).take i = (words.map Prod.snd).take i)
    (short : r.count < s.params.literals.vPrimeWordBytes)
    (reads : s.answers.reads = (v.take i).map wholeRead ++ r :: l) :
    compareVPrime words s =
      .ok (false, (s.afterReads (wordReads s.params ((words.map Prod.fst).take (i + 1))) l).readFailure) := by
  induction words generalizing s v i with
  | nil => cases hi
  | cons w words ih =>
    cases i with
    | zero => exact compareVPrime_cons_of_short reads short
    | succ i =>
      obtain ⟨b, v, rfl⟩ := List.exists_cons_of_length_eq_add_one count
      rw [List.take_succ_cons, List.map_cons, List.cons_append] at reads
      have length := lengths b List.mem_cons_self
      obtain ⟨head, tail⟩ := List.cons.inj equal
      have others := fun b hb => lengths b (List.mem_cons_of_mem _ hb)
      rw [compareVPrime_cons_of_equal reads length head,
        ih (s := s.afterReads _ _) others (Nat.succ.inj count) (Nat.lt_of_succ_lt_succ hi) tail short rfl,
        State.afterReads_afterReads]
      rfl

/-- An attempt whose list is read whole asks for `Mo` and compares the words of the digest. -/
theorem ksvListAttempt_of_whole_list {s : State} {bs : List (List Byte)} {mo : Wide} {mos : List Wide}
    {l : List ReadAnswer} (hc : 1 ≤ s.params.ksvChunk)
    (sizes : bs.map List.length =
      chunkSizes s.params.ksvChunk (s.params.literals.ksvBytes * deviceCount s.tx.repeaterInfo))
    (reads : s.answers.reads = bs.map wholeRead ++ l) (hmo : s.answers.mo = mo :: mos) :
    ksvListAttempt s = compareVPrime
      (((vhOffsets s.params.portMap).zip
        (sha1 (ksvListMessage s.params.literals bs.flatten s.tx.repeaterInfo mo))).take s.params.literals.vPrimeWords)
      (s.asked (fifoReads s.params (bs.map List.length) ++ [.cipherGetMo]) (bs.length + 1)
        { s.answers with reads := l, mo := mos }) := by
  rw [ksvListAttempt, readKsvFifo_whole hc (Nat.le_refl _) sizes reads, ok_bind, ← sizes]
  simp only [List.nil_append]
  rw [State.cipherGetMo_of_listed (v := mo) (l := mos), State.afterReads, State.asked_asked]
  · simp [fifoReads]
  · exact hmo

/-- An attempt whose list is read short ends there. -/
theorem ksvListAttempt_of_short_list {s t : State}
    (h : readKsvFifo (s.params.literals.ksvBytes * deviceCount s.tx.repeaterInfo)
      (s.params.literals.ksvBytes * deviceCount s.tx.repeaterInfo) [] s = .ok (none, t)) :
    ksvListAttempt s = .ok (false, t) := by
  rw [ksvListAttempt, h, ok_bind]

/-! ## The words compared: offsets beside digest words -/

section
variable (m : PortMap) (digest : List Word) (w : Nat)

theorem vhWords_fst (hd : digest.length = 5) :
    (((vhOffsets m).zip digest).take w).map Prod.fst = (vhOffsets m).take w := by
  rw [List.map_take, List.map_fst_zip]
  exact Nat.le_of_eq hd.symm

theorem vhWords_snd (hd : digest.length = 5) :
    (((vhOffsets m).zip digest).take w).map Prod.snd = digest.take w := by
  rw [List.map_take, List.map_snd_zip]
  exact Nat.le_of_eq hd

end

/-- Settles O54: the list is read, and then the words are equal, or one differs, or a read is short. -/
theorem ksvListAttemptComparesTheDigest : Obligations.KsvListAttemptComparesTheDigest := by
  intro s a bs l sizes offs failed asked hc
  refine ⟨fun mo v whole few count lengths => ?_, fun m r whole next short listed => ?_⟩
  · intro h
    let digest := sha1 (ksvListMessage l bs.flatten s.tx.repeaterInfo mo)
    let words := ((vhOffsets s.params.portMap).zip digest).take l.vPrimeWords
    have words_fst : words.map Prod.fst = offs := vhWords_fst _ _ _ (sha1_length _)
    have words_snd : words.map Prod.snd = h := vhWords_snd _ _ _ (sha1_length _)
    have h_length : h.length = l.vPrimeWords := List.length_take_of_le few
    have words_length : words.length = l.vPrimeWords := by rw [← h_length, ← words_snd, List.length_map]
    have offs_length : offs.length = l.vPrimeWords := by rw [← words_fst, List.length_map, words_length]
    have drawn : bs.length = sizes.length := by rw [← whole, List.length_map]
    have attempt {tail : List ReadAnswer} (listed : s.answers = { a with
        mo := mo :: a.mo, reads := bs.map wholeRead ++ tail }) :
        ksvListAttempt s = compareVPrime words
          (s.asked (fifoReads s.params sizes ++ [.cipherGetMo]) (sizes.length + 1) { a with reads := tail }) := by
      rw [ksvListAttempt_of_whole_list hc whole (by rw [listed]) (by rw [listed]), whole, drawn, listed]
    have count' : v.length = words.length := count.trans words_length.symm
    rw [← words_snd]
    refine ⟨by rw [words_snd, h_length], fun equal listed => ?_, fun i hi equal differs listed => ?_,
      fun i r hi equal short listed => ?_⟩
    · rw [attempt listed, compareVPrime_of_equal (s := s.asked _ _ _) (l := a.reads) lengths equal rfl, words_fst,
        State.afterReads,
        State.asked_asked]
      simp [State.asked, wordReads, fifoReads, offs_length, asked, l]
    · rw [attempt listed, compareVPrime_of_differs (s := s.asked _ _ _) (l := a.reads) lengths count'
        (words_length ▸ hi) equal
        differs rfl, words_fst, State.afterReads, State.asked_asked]
      simp [State.asked, wordReads, fifoReads, offs_length, asked, l, Nat.succ_le_of_lt hi]
    · rw [attempt listed, compareVPrime_of_short (s := s.asked _ _ _) (l := a.reads) lengths count'
        (words_length ▸ hi) equal
        short rfl, words_fst, State.afterReads, State.asked_asked]
      simp [State.asked, State.readFailure, State.setTx, bump, wordReads, fifoReads, offs_length, asked, failed, l,
        Nat.succ_le_of_lt hi]
  · have reads : s.answers.reads = bs.map wholeRead ++ r :: a.reads := by rw [listed]
    have more : bs.length < sizes.length := (List.getElem?_eq_some_iff.1 next).1
    have drawn : (fifoReads s.params ((chunkSizes s.params.ksvChunk (s.params.literals.ksvBytes *
        deviceCount s.tx.repeaterInfo)).take (bs.length + 1))).length = bs.length + 1 := by
      rw [fifoReads, List.length_map]
      exact List.length_take_of_le more
    rw [ksvListAttempt_of_short_list (readKsvFifo_short hc (Nat.le_refl _) whole next short reads), State.afterReads,
      drawn, listed]
    rfl

/-! ## Comparisons that count (43_tx_procedures.md R218, 45_linkcheck.md R291, R292) -/

theorem ksvListAttempts_asksCountingReads {n : Nat} {s t : State} {ok : Bool}
    (h : ksvListAttempts n s = .ok (ok, t)) : s.asksCountingReads t := by
  induction n generalizing s with
  | zero => cases h; exact State.asksCountingReads_refl _
  | succ n ih =>
    unfold ksvListAttempts at h
    obtain ⟨⟨success, s1⟩, attempt, h⟩ := bind_eq_ok h
    have first := ksvListAttempt_asksCountingReads attempt
    cases success with
    | true => cases h; exact first
    | false => exact State.asksCountingReads_trans first (ih h)

theorem roTries_asksCountingReads {ro : Half} {n : Nat} {s t : State} {ok : Bool}
    (h : roTries ro n s = .ok (ok, t)) : s.asksCountingReads t := by
  induction n generalizing s with
  | zero => cases h; exact State.asksCountingReads_refl _
  | succ n ih =>
    unfold roTries at h
    obtain ⟨⟨answer, s1⟩, read, h⟩ := bind_eq_ok h
    have asked := State.asksCountingReads_of_asks (State.portRead_spec read).1
    cases answer with
    | none =>
      exact State.asksCountingReads_trans
        (State.asksCountingReads_trans asked s1.asksCountingReads_readFailure) (ih h)
    | some b =>
      simp only at h
      split at h
      · cases h; exact asked
      · exact State.asksCountingReads_trans asked (ih h)

theorem riTries_asksCountingReads {n : Nat} {s t : State} {ok : Bool} (h : riTries n s = .ok (ok, t)) :
    s.asksCountingReads t := by
  induction n generalizing s with
  | zero => cases h; exact State.asksCountingReads_refl _
  | succ n ih =>
    unfold riTries at h
    obtain ⟨⟨answer, s1⟩, read, h⟩ := bind_eq_ok h
    have asked := State.asksCountingReads_of_asks (State.asks_trans s.asks_cipherGetRi (State.portRead_spec read).1)
    cases answer with
    | none =>
      exact State.asksCountingReads_trans
        (State.asksCountingReads_trans asked s1.asksCountingReads_readFailure) (ih h)
    | some b =>
      simp only at h
      split at h
      · cases h; exact asked
      · exact State.asksCountingReads_trans asked (ih h)

/-- Settles O56: the tries and attempts ask and count failed reads; then the outcome counts once. -/
theorem comparisonsCountTheirOutcomeOnce : Obligations.ComparisonsCountTheirOutcomeOnce := by
  refine ⟨fun s t n h => ?_, fun s t n h => ?_⟩
  · rcases h with h | h
    · unfold validateKsvList at h
      obtain ⟨⟨ok, s1⟩, attempts, h⟩ := bind_eq_ok h
      obtain ⟨_, c, ⟨a, d, rs, rfl⟩, rfl⟩ := ksvListAttempts_asksCountingReads attempts
      refine ⟨_, c, ⟨a, d, rs, rfl⟩, ?_⟩
      cases ok with
      | true => cases h; exact .inr ⟨.inl rfl, rfl⟩
      | false => cases h; exact .inl ⟨rfl, rfl⟩
    · unfold validateRx at h
      obtain ⟨⟨ok, s1⟩, tries, h⟩ := bind_eq_ok h
      obtain ⟨_, c, ⟨a, d, rs, rfl⟩, rfl⟩ := State.asksCountingReads_trans
        (State.asksCountingReads_of_asks s.asks_cipherGetRo) (roTries_asksCountingReads tries)
      refine ⟨_, c, ⟨a, d, rs, rfl⟩, ?_⟩
      cases ok with
      | true => cases h; exact .inr ⟨.inr rfl, rfl⟩
      | false => cases h; exact .inl ⟨rfl, rfl⟩
  · unfold linkIntegrityCheck at h
    obtain ⟨⟨ok, s1⟩, tries, h⟩ := bind_eq_ok h
    obtain ⟨_, c, ⟨a, d, rs, rfl⟩, rfl⟩ := riTries_asksCountingReads tries
    refine ⟨_, c, ⟨a, d, rs, rfl⟩, ?_⟩
    cases ok with
    | true => cases h; exact .inl ⟨rfl, rfl⟩
    | false => cases h; exact .inr ⟨rfl, rfl⟩

end Sys2Proof.Machine
end

section
/-! What a dispatch, an event row and a drain come to when they end: the frame of the statements about rows. -/

namespace Sys2Proof.Machine

/-! ## Event rows -/

theorem eventFrame_eq_next_iff {d : Direction} {run : State → Except Fault State} {s t : State}
    (hd : s.params.direction = d) : eventFrame d run s = .next t ↔ run s = .ok t := by
  rw [eventFrame, if_pos hd]
  cases run s <;> simp

theorem exec_txRow_iff {s t : State} {e : TxEvent} (d : s.params.direction = .tx) :
    exec e.row s = .next t ↔ txDispatch e s = .ok t := by
  have frame : exec e.row s = eventFrame .tx (txDispatch e) s := by cases e <;> rfl
  rw [frame, eventFrame_eq_next_iff d]

theorem exec_rxRow_iff {s t : State} {e : RxEvent} (d : s.params.direction = .rx) :
    exec e.row s = .next t ↔ rxDispatch e s = .ok t := by
  have frame : exec e.row s = eventFrame .rx (rxDispatch e) s := by cases e <;> rfl
  rw [frame, eventFrame_eq_next_iff d]

/-! ## The drain of a command (41_event_queue.md R153) -/

section
variable {s : State} {m : Half}

/-- A Tx command's drain dispatches the events of the mask that its post leaves. -/
theorem drain_postFor_tx {e : TxEvent} {l : List TxEvent} (d : s.params.direction = .tx) (quiet : s.undisturbed)
    (pending : postedTo s.pendingEvents (.tx e) = m) (legal : m &&& reservedEventMask .tx = 0#16)
    (events : (txEventOrder.filter fun e => m.getLsbD e.number) = l) (r : RxEvent) :
    drain (s.postFor e r) = l.foldlM (fun t e => txDispatch e t) (s.setPending 0#16) := by
  have posted : (s.post (.tx e)).pendingEvents = m := pending
  have lawful : (s.post (.tx e)).pendingLegal := by
    rw [State.pendingLegal, posted, State.post_eq, State.setPending_params, d, legal]
  rw [State.postFor_tx d, drain_tx (s := s.post (.tx e)) d quiet lawful, posted, events]
  rfl

theorem drain_postFor_rx {e : RxEvent} {l : List RxEvent} (d : s.params.direction = .rx) (quiet : s.undisturbed)
    (pending : postedTo s.pendingEvents (.rx e) = m) (legal : m &&& reservedEventMask .rx = 0#16)
    (events : (rxEventOrder.filter fun e => m.getLsbD e.number) = l) (t : TxEvent) :
    drain (s.postFor t e) = l.foldlM (fun t e => rxDispatch e t) (s.setPending 0#16) := by
  have posted : (s.post (.rx e)).pendingEvents = m := pending
  have lawful : (s.post (.rx e)).pendingLegal := by
    rw [State.pendingLegal, posted, State.post_eq, State.setPending_params, d, legal]
  rw [State.postFor_rx d, drain_rx (s := s.post (.rx e)) d quiet lawful, posted, events]
  rfl

theorem State.calm_setPending (calm : s.calm) : s.setPending 0#16 = s := by
  obtain ⟨-, -, clear⟩ := calm
  rw [← clear, State.setPending_self]

/-- With nothing else pending, the drain of a command is the dispatch of its event. -/
theorem drain_calm_tx (d : s.params.direction = .tx) (calm : s.calm) (e : TxEvent) (r : RxEvent) :
    drain (s.postFor e r) = txDispatch e s := by
  have pending : postedTo s.pendingEvents (.tx e) = e.mask := by
    rw [calm.2.2]
    cases e <;> rfl
  rw [drain_postFor_tx (l := [e]) d calm.2.1 pending (by cases e <;> rfl) (by cases e <;> rfl),
    State.calm_setPending calm, List.foldlM_cons]
  exact bind_pure _

theorem drain_calm_rx (d : s.params.direction = .rx) (calm : s.calm) (t : TxEvent) (e : RxEvent) :
    drain (s.postFor t e) = rxDispatch e s := by
  have pending : postedTo s.pendingEvents (.rx e) = e.mask := by
    rw [calm.2.2]
    cases e <;> rfl
  rw [drain_postFor_rx (l := [e]) d calm.2.1 pending (by cases e <;> rfl) (by cases e <;> rfl),
    State.calm_setPending calm, List.foldlM_cons]
  exact bind_pure _

/-- A command that drains and whose drain ends, ends in `SUCCESS`. -/
theorem exec_of_drain {t : State} {i : Instr} {r : Except Fault State} (h : exec i s = ended r) (ok : r = .ok t) :
    exec i s = .next (t.setResult .success) := by
  rw [h, ok, ended]

/-- A row and the command that posts its event, with nothing else pending, end in the same state. -/
theorem exec_txRow_and_command {t : State} {e : TxEvent} {r : RxEvent} {i : Instr} (d : s.params.direction = .tx)
    (command : s.accepts → exec i s = ended (drain (s.postFor e r))) (h : txDispatch e s = .ok t) :
    exec e.row s = .next t ∧ (s.calm → exec i s = .next (t.setResult .success)) :=
  ⟨(exec_txRow_iff d).2 h, fun calm => exec_of_drain (command calm.1) ((drain_calm_tx d calm e r).trans h)⟩

theorem exec_rxRow_and_command {t : State} {e : RxEvent} {r : TxEvent} {i : Instr} (d : s.params.direction = .rx)
    (command : s.accepts → exec i s = ended (drain (s.postFor r e))) (h : rxDispatch e s = .ok t) :
    exec e.row s = .next t ∧ (s.calm → exec i s = .next (t.setResult .success)) :=
  ⟨(exec_rxRow_iff d).2 h, fun calm => exec_of_drain (command calm.1) ((drain_calm_rx d calm r e).trans h)⟩

/-- `POLL` that finds one other event pending dispatches both. -/
theorem exec_poll_of_two_tx {t u : State} {a b : TxEvent} (ha : s.accepts) (d : s.params.direction = .tx)
    (quiet : s.undisturbed) (pending : postedTo s.pendingEvents (.tx .poll) = m)
    (legal : m &&& reservedEventMask .tx = 0#16) (events : (txEventOrder.filter fun e => m.getLsbD e.number) = [a, b])
    (first : txDispatch a (s.setPending 0#16) = .ok t) (second : txDispatch b t = .ok u) :
    exec .poll s = .next (u.setResult .success) := by
  refine exec_of_drain (exec_poll ha) ?_
  rw [drain_postFor_tx d quiet pending legal events, List.foldlM_cons, first, ok_bind, List.foldlM_cons, second,
    ok_bind]
  rfl

theorem exec_poll_of_two_rx {t u : State} {a b : RxEvent} (ha : s.accepts) (d : s.params.direction = .rx)
    (quiet : s.undisturbed) (pending : postedTo s.pendingEvents (.rx .poll) = m)
    (legal : m &&& reservedEventMask .rx = 0#16) (events : (rxEventOrder.filter fun e => m.getLsbD e.number) = [a, b])
    (first : rxDispatch a (s.setPending 0#16) = .ok t) (second : rxDispatch b t = .ok u) :
    exec .poll s = .next (u.setResult .success) := by
  refine exec_of_drain (exec_poll ha) ?_
  rw [drain_postFor_rx d quiet pending legal events, List.foldlM_cons, first, ok_bind, List.foldlM_cons, second,
    ok_bind]
  rfl

end

/-! ## The dispatch of a Tx (41_event_queue.md R156 to R159) -/

theorem txDispatch_of_run {s u : State} {e : TxEvent} {st n : TxState} (hs : s.txIn st)
    (run : txRun e st (s.updatePhyTx e) = .ok (n, u)) : txDispatch e s = txChain chainBound st n u := by
  obtain ⟨-, code, legal⟩ := hs
  have current : txCurrent (s.updatePhyTx e) = .ok st := txCurrent_of_code (by rw [State.updatePhyTx_tx, code])
  have known : ¬ (txStateOf s.tx.previousState).isNone = true := by
    cases h : txStateOf s.tx.previousState <;> simp_all
  simp only [txDispatch, current, ok_bind, State.updatePhyTx_tx, run]
  exact if_neg known

section
variable {s u : State} {cur next after : TxState} {b : Nat}

theorem txChain_stay : txChain b cur cur s = .ok s := by
  cases b <;> exact if_pos rfl

theorem txChain_enter (ne : next ≠ cur) (enter : txEnter next (txExit cur s) = .ok (after, u)) :
    txChain (b + 1) cur next s = txChain b next after (u.moveTx next) := by
  rw [txChain, if_neg ne, enter, ok_bind]

theorem txChain_rest (ne : next ≠ cur) (enter : txEnter next (txExit cur s) = .ok (next, u)) :
    txChain (b + 1) cur next s = .ok (u.moveTx next) := by
  rw [txChain_enter ne enter, txChain_stay]

end

/-- The runs of the pairs that the table leaves empty (42_tx_events.md R180). -/
theorem txRun_of_not_handled {s : State} {e : TxEvent} {st : TxState} (h : txHandles s.params e st = false) :
    txRun e st s = .ok (st, s) := by
  cases e with
  | authenticate | check | disable | enable | linkDown | phyDown | phyUp | timeout =>
    cases st <;> simp [txHandles] at h <;> rfl
  | poll =>
    cases st with
    | computations => simp [txHandles] at h
    | waitForReady =>
      have off : s.params.wfrPollOnPoll = false := h
      simp [txRun, txRunPoll, off]
    | disabled | determineRxCapable | exchangeKsvs | validateRx | authenticated | linkIntegrityCheck | testForRepeater
    | readKsvList | unauthenticated | phyDown => rfl

theorem txDispatch_of_not_handled {s : State} {e : TxEvent} {st : TxState} (hs : s.txIn st)
    (h : txHandles s.params e st = false) : txDispatch e s = .ok (s.updatePhyTx e) := by
  rw [txDispatch_of_run hs (txRun_of_not_handled (by rwa [State.updatePhyTx_params])), txChain_stay]

/-- Settles O37: the run chooses the state itself. -/
theorem txIgnoredEventsChangeNothing : Obligations.TxIgnoredEventsChangeNothing := by
  intro s st e hs ignored
  rw [(exec_txRow_iff hs.1).2 (txDispatch_of_not_handled hs ignored)]
  cases e <;> rfl

/-! ## The dispatch of an Rx -/

theorem rxDispatch_of_run {s u : State} {e : RxEvent} {st n : RxState} (hs : s.rxIn st)
    (run : rxRun e st (s.updatePhyRx e) = .ok (n, u)) : rxDispatch e s = rxChain chainBound st n u := by
  obtain ⟨-, code, legal⟩ := hs
  have current : rxCurrent (s.updatePhyRx e) = .ok st := rxCurrent_of_code (by rw [State.updatePhyRx_rx, code])
  have known : ¬ (rxStateOf s.rx.previousState).isNone = true := by
    cases h : rxStateOf s.rx.previousState <;> simp_all
  simp only [rxDispatch, current, ok_bind, State.updatePhyRx_rx, run]
  exact if_neg known

section
variable {s s0 u : State} {cur next after : RxState} {b : Nat}

theorem rxChain_stay : rxChain b cur cur s = .ok s := by
  cases b <;> exact if_pos rfl

theorem rxChain_enter (ne : next ≠ cur) (exit : rxExit cur s = .ok s0) (enter : rxEnter next s0 = .ok (after, u)) :
    rxChain (b + 1) cur next s = rxChain b next after (u.moveRx next) := by
  rw [rxChain, if_neg ne, exit, ok_bind, enter, ok_bind]

theorem rxChain_rest (ne : next ≠ cur) (exit : rxExit cur s = .ok s0) (enter : rxEnter next s0 = .ok (next, u)) :
    rxChain (b + 1) cur next s = .ok (u.moveRx next) := by
  rw [rxChain_enter ne exit enter, rxChain_stay]

end

/-- Only `DISABLED` has an exit action (44_rx_events.md R264). -/
theorem rxExit_of_ne_disabled {st : RxState} (ne : st ≠ .disabled) (s : State) : rxExit st s = .ok s := by
  cases st with
  | disabled => exact absurd rfl ne
  | unauthenticated | computations | authenticated | linkIntegrityFailed | phyDown => rfl

/-- The runs of the pairs that the table leaves empty (44_rx_events.md R259). -/
theorem rxRun_of_not_handled {s : State} {e : RxEvent} {st : RxState} (h : rxHandles s.params e st = false) :
    rxRun e st s = .ok (st, s) := by
  cases e with
  | authenticate | check | disable | enable | phyDown | phyUp | poll =>
    cases st <;> simp [rxHandles] at h <;> rfl
  | updateRi =>
    cases st with
    | authenticated =>
      cases p : s.params.protocol with
      | hdmi => simp [rxHandles, p] at h
      | dp => simp [rxRun, rxRunUpdateRi, p]
    | disabled | unauthenticated | computations | linkIntegrityFailed | phyDown => rfl

theorem rxDispatch_of_not_handled {s : State} {e : RxEvent} {st : RxState} (hs : s.rxIn st)
    (h : rxHandles s.params e st = false) : rxDispatch e s = .ok (s.updatePhyRx e) := by
  rw [rxDispatch_of_run hs (rxRun_of_not_handled (by rwa [State.updatePhyRx_params])), rxChain_stay]

/-- Settles O46: the run chooses the state itself. -/
theorem rxIgnoredEventsChangeNothing : Obligations.RxIgnoredEventsChangeNothing := by
  intro s st e hs ignored
  rw [(exec_rxRow_iff hs.1).2 (rxDispatch_of_not_handled hs ignored)]
  cases e <;> rfl

end Sys2Proof.Machine
end

section
/-! The statements of 42_tx_events.md about the events of the life cycle. -/

namespace Sys2Proof.Machine

/-! ## Exit and entry actions (42_tx_events.md R181 to R197) -/

@[simp] theorem State.setTimer_setTx (s : State) (t : Option Nat) (r : TxRegs) :
    (s.setTimer t).setTx r = (s.setTx r).setTimer t := rfl

@[simp] theorem State.setTimer_setTimer (s : State) (t u : Option Nat) : (s.setTimer t).setTimer u = s.setTimer u := rfl

theorem State.stopTimer_eq_asked (s : State) :
    s.stopTimer = (s.asked (stopRequests s.params) 0 s.answers).setTimer (stoppedTimer s.params s.timer) := by
  rw [State.stopTimer_eq]
  rfl

theorem State.startTimer_eq_asked (s : State) (ms : Nat) :
    s.startTimer ms =
      (s.asked (startRequests s.params ms) 0 s.answers).setTimer (startedTimer s.params ms s.timer) := by
  rw [State.startTimer_eq]
  rfl

theorem txExit_of_ne_disabled {st : TxState} (ne : st ≠ .disabled) (s : State) :
    txExit st s =
      (s.asked (txExitRequests s.params st) 0 s.answers).setTimer (txExitTimer s.params st s.timer) := by
  rw [txExit_eq, if_neg ne]
  rfl

theorem txEnterDisabled_eq (s : State) :
    txEnterDisabled s = ((s.asked (txDisabledRequests s.params) 0 s.answers).setTx { s.tx with
      stats := .zero, an := 0#64, isRepeater := false }).setTimer (stoppedTimer s.params s.timer) := by
  simp [txEnterDisabled, State.stopTimer_eq_asked, State.issue_eq_asked, txDisabledRequests]

theorem txEnterUnauthenticated_eq (s : State) :
    txEnterUnauthenticated s = (s.asked disarmRequests 0 s.answers).setAn 0#64 := by
  simp [txEnterUnauthenticated, State.setCheckLinkState_eq, State.issue_eq_asked, disarmRequests]

theorem txEnterPhyDown_eq (s : State) :
    txEnterPhyDown s = (s.asked [.cipherDisableEncryption allStreams, .cipherDisable] 0 s.answers).setAn 0#64 := by
  simp [txEnterPhyDown, State.issue_eq_asked]

/-- Stopping a timer that the exit action stopped already changes nothing. -/
theorem stoppedTimer_txExitTimer (p : Params) (st : TxState) (t : Option Nat) :
    stoppedTimer p (txExitTimer p st t) = stoppedTimer p t := by
  cases h : p.hooks.timerStop <;> simp [txExitTimer, stoppedTimer, h]

/-! ## `DISABLE`, `ENABLE`, `LINKDOWN`, `PHYDOWN`, `PHYUP` (42_tx_events.md R173 to R177) -/

/-- A Tx in `DISABLED`, reached from `st` (42_tx_events.md R173, R181). -/
def State.disabledTx (s : State) (st : TxState) : State :=
  { s with
    tx := { s.tx with
      currentState := TxState.disabled.code, previousState := st.code, an := 0#64, isRepeater := false
      stats := .zero }
    timer := stoppedTimer s.params s.timer
    requests := s.requests ++ txExitRequests s.params st ++ txDisabledRequests s.params }

theorem State.disabledTx_txIn {s : State} (d : s.params.direction = .tx) (st : TxState) :
    (s.disabledTx st).txIn .disabled :=
  ⟨d, rfl, by rw [State.disabledTx, txStateOf_code]; rfl⟩

section
variable {s : State} {st : TxState}

theorem txDispatch_disable (hs : s.txIn st) (ne : st ≠ .disabled) (held : st ≠ .testForRepeater) :
    txDispatch .disable s = .ok (s.disabledTx st) := by
  have run : txRun .disable st s = .ok (.disabled, s) := by
    cases st with
    | disabled => exact absurd rfl ne
    | testForRepeater => exact absurd rfl held
    | determineRxCapable | exchangeKsvs | computations | validateRx | authenticated | linkIntegrityCheck | waitForReady
    | readKsvList | unauthenticated | phyDown => rfl
  rw [txDispatch_of_run hs run, chainBound, txChain_rest ne.symm rfl, txExit_of_ne_disabled ne, txEnterDisabled_eq]
  simp [State.disabledTx, State.moveTx, State.asked, State.setTx, State.setTimer, hs.2.1, stoppedTimer_txExitTimer]

theorem txDispatch_enable (hs : s.txIn .disabled) :
    txDispatch .enable s = .ok { s with
      tx := { s.tx with
        currentState := if s.phyUp then TxState.unauthenticated.code else TxState.phyDown.code
        previousState := TxState.disabled.code, an := 0#64 }
      callbacks := txCallbacks
      requests := s.requests ++ txEnableRequests ++
        (if s.phyUp then disarmRequests else [.cipherDisableEncryption allStreams, .cipherDisable]) } := by
  rw [txDispatch_of_run hs rfl, chainBound]
  cases up : s.phyUp with
  | true =>
    rw [State.updatePhyTx, up, if_pos rfl, txChain_rest (cur := .disabled) (next := .unauthenticated) nofun rfl,
      txExit_eq, txEnterUnauthenticated_eq]
    simp [State.moveTx, State.asked, State.setTx, State.setAn, hs.2.1, txExitRequests, txExitTimer, TxState.timed, up]
  | false =>
    rw [State.updatePhyTx, up, if_neg Bool.false_ne_true, txChain_rest (cur := .disabled) (next := .phyDown) nofun rfl,
      txExit_eq, txEnterPhyDown_eq]
    simp [State.moveTx, State.asked, State.setTx, State.setAn, hs.2.1, txExitRequests, txExitTimer, TxState.timed, up]

theorem txDispatch_linkDown (hs : s.txIn .authenticated) :
    txDispatch .linkDown s = .ok { s with
      tx := { s.tx with
        currentState := TxState.unauthenticated.code, previousState := TxState.authenticated.code, an := 0#64 }
      requests := s.requests ++ disarmRequests } := by
  rw [txDispatch_of_run hs rfl, chainBound, txChain_rest (cur := .authenticated) (next := .unauthenticated) nofun rfl,
    txEnterUnauthenticated_eq]
  simp [State.moveTx, State.asked, State.setTx, State.setAn, hs.2.1, txExit, State.updatePhyTx]

theorem txDispatch_phyDown (hs : s.txIn st) (ne : st ≠ .disabled) (moves : st ≠ .phyDown)
    (held : st ≠ .testForRepeater) :
    txDispatch .phyDown s = .ok { s with
      tx := { s.tx with currentState := TxState.phyDown.code, previousState := st.code, an := 0#64 }
      phyUp := false
      timer := txExitTimer s.params st s.timer
      requests := s.requests ++ txExitRequests s.params st ++
        [.cipherDisableEncryption allStreams, .cipherDisable] } := by
  have run : txRun .phyDown st (s.setPhyUp false) = .ok (.phyDown, s.setPhyUp false) := by
    cases st with
    | disabled => exact absurd rfl ne
    | phyDown => exact absurd rfl moves
    | testForRepeater => exact absurd rfl held
    | determineRxCapable | exchangeKsvs | computations | validateRx | authenticated | linkIntegrityCheck | waitForReady
    | readKsvList | unauthenticated => rfl
  rw [txDispatch_of_run hs run, chainBound, txChain_rest moves.symm rfl, txExit_of_ne_disabled ne, txEnterPhyDown_eq]
  simp [State.moveTx, State.asked, State.setTx, State.setAn, State.setPhyUp, State.setTimer, hs.2.1]

theorem txDispatch_phyUp (hs : s.txIn .phyDown) :
    txDispatch .phyUp s = .ok { s with
      tx := { s.tx with
        currentState := TxState.unauthenticated.code, previousState := TxState.phyDown.code, an := 0#64 }
      phyUp := true
      pendingEvents := if s.tx.encryptionMap = 0#64 then s.pendingEvents else s.pendingEvents ||| 0x0002#16
      requests := s.requests ++ [.cipherEnable] ++ disarmRequests } := by
  rw [txDispatch_of_run hs rfl, chainBound, txChain_rest (cur := .phyDown) (next := .unauthenticated) nofun rfl,
    txEnterUnauthenticated_eq]
  by_cases empty : s.tx.encryptionMap = 0#64
  · simp [State.moveTx, State.asked, State.setTx, State.setAn, State.setPhyUp, hs.2.1, txExit, State.updatePhyTx, empty,
      State.issue]
  · rw [State.post_unsuppressed rfl]
    simp [State.moveTx, State.asked, State.setTx, State.setAn, State.setPhyUp, hs.2.1, txExit, State.updatePhyTx, empty,
      State.issue, Event.mask, TxEvent.mask, TxEvent.number]

end

/-- Settles O28. -/
theorem txDisableEntersDisabled : Obligations.TxDisableEntersDisabled := by
  rintro s _ st hs ne held rfl
  exact exec_txRow_and_command (e := .disable) hs.1 exec_disable (txDispatch_disable hs ne held)

/-- Settles O29. -/
theorem txEnableLeavesDisabled : Obligations.TxEnableLeavesDisabled := by
  rintro s _ hs rfl
  exact exec_txRow_and_command (e := .enable) hs.1 exec_enable (txDispatch_enable hs)

/-- Settles O31. -/
theorem txPhydownEntersPhydown : Obligations.TxPhydownEntersPhydown := by
  rintro s _ st hs ne moves held rfl
  exact exec_txRow_and_command (e := .phyDown) hs.1 exec_setphy_down (txDispatch_phyDown hs ne moves held)

/-- Settles O32: the drain's snapshot was taken before `PHYUP` posts. -/
theorem txPhyupLeavesPhydown : Obligations.TxPhyupLeavesPhydown := by
  rintro s _ hs rfl
  exact exec_txRow_and_command (e := .phyUp) hs.1 exec_setphy_up (txDispatch_phyUp hs)

/-- Settles O30: `POLL` is dispatched after `LINKDOWN`, and `UNAUTHENTICATED` ignores it. -/
theorem txLinkdownEndsUnauthenticated : Obligations.TxLinkdownEndsUnauthenticated := by
  rintro s _ hs rfl
  refine ⟨(exec_txRow_iff (e := .linkDown) hs.1).2 (txDispatch_linkDown hs), fun ha quiet pend => ?_⟩
  exact exec_poll_of_two_tx (m := 0x0120#16) (a := .linkDown) ha hs.1 quiet (by rw [pend]; rfl) rfl rfl
    (txDispatch_linkDown (s := s.setPending 0#16) hs)
    (txDispatch_of_not_handled (st := .unauthenticated) ⟨hs.1, rfl, rfl⟩ rfl)

/-! ## `POLL` in `COMPUTATIONS` (42_tx_events.md R178) -/

theorem txDispatch_poll_computations {s : State} {done : Bool} {l : List Bool} (hs : s.txIn .computations)
    (h : s.answers.complete = done :: l) :
    txDispatch .poll s = .ok { s with
      tx := if done then { s.tx with
              currentState := TxState.validateRx.code, previousState := TxState.computations.code } else s.tx
      timer := if done then startedTimer s.params s.params.literals.tValidateRx s.timer else s.timer
      answers := { s.answers with complete := l }
      draws := s.draws + 1
      requests := s.requests ++ [.cipherIsRequestComplete] ++
        (if done then startRequests s.params s.params.literals.tValidateRx else []) } := by
  have run : txRun .poll .computations s = .ok (if done then .validateRx else .computations,
      s.asked [.cipherIsRequestComplete] 1 { s.answers with complete := l }) := by
    rw [txRun, txRunPoll, pollForComputations, State.cipherIsRequestComplete_of_listed h]
  rw [txDispatch_of_run hs run, chainBound]
  cases done with
  | true =>
    rw [if_pos rfl, txChain_rest (cur := .computations) (next := .validateRx) nofun rfl,
      txExit_of_ne_disabled (st := .computations) nofun, State.startTimer_eq_asked]
    simp [State.moveTx, State.asked, State.setTx, State.setTimer, hs.2.1, txExitRequests, txExitTimer, TxState.timed]
  | false =>
    rw [if_neg Bool.false_ne_true, txChain_stay]
    simp [State.asked]

/-- Settles O33. -/
theorem txPollAsksForComputations : Obligations.TxPollAsksForComputations := by
  rintro s _ a done hs listed rfl
  have dispatch := txDispatch_poll_computations (done := done) (l := a.complete) hs (by rw [listed])
  rw [listed] at dispatch
  exact exec_txRow_and_command (e := .poll) hs.1 exec_poll dispatch

end Sys2Proof.Machine
end

section
/-! The statements of 44_rx_events.md about rows, and `RESET` and `DISABLE` of both directions. -/

namespace Sys2Proof.Machine

/-! ## `DISABLE`, `ENABLE`, `PHYDOWN`, `PHYUP` (44_rx_events.md R253 to R256) -/

theorem rxEnterDisabled_eq (s : State) :
    rxEnterDisabled s = (s.asked [.portDisable, .cipherDisable] 0 s.answers).setRx { s.rx with riUpdates := 0 } := by
  simp [rxEnterDisabled, State.issue_eq_asked]

/-- An Rx in `DISABLED`, reached from `st` (44_rx_events.md R253, R260). -/
def State.disabledRx (s : State) (st : RxState) : State :=
  { s with
    rx := { currentState := RxState.disabled.code, previousState := st.code, riUpdates := 0 }
    requests := s.requests ++ [.portDisable, .cipherDisable] }

theorem State.disabledRx_rxIn {s : State} (d : s.params.direction = .rx) (st : RxState) :
    (s.disabledRx st).rxIn .disabled :=
  ⟨d, rfl, by rw [State.disabledRx, rxStateOf_code]; rfl⟩

section
variable {s : State} {st : RxState}

theorem rxDispatch_disable (hs : s.rxIn st) (ne : st ≠ .disabled) :
    rxDispatch .disable s = .ok (s.disabledRx st) := by
  have run : rxRun .disable st s = .ok (.disabled, s) := by
    cases st with
    | disabled => exact absurd rfl ne
    | unauthenticated | computations | authenticated | linkIntegrityFailed | phyDown => rfl
  rw [rxDispatch_of_run hs run, chainBound, rxChain_rest ne.symm (rxExit_of_ne_disabled ne s) rfl, rxEnterDisabled_eq]
  simp [State.disabledRx, State.moveRx, State.asked, State.setRx, hs.2.1]

theorem rxDispatch_phyDown (hs : s.rxIn st) (ne : st ≠ .disabled) (moves : st ≠ .phyDown) :
    rxDispatch .phyDown s = .ok { s with
      rx := { s.rx with currentState := RxState.phyDown.code, previousState := st.code }
      phyUp := false } := by
  have run : rxRun .phyDown st (s.setPhyUp false) = .ok (.phyDown, s.setPhyUp false) := by
    cases st with
    | disabled => exact absurd rfl ne
    | phyDown => exact absurd rfl moves
    | unauthenticated | computations | authenticated | linkIntegrityFailed => rfl
  rw [rxDispatch_of_run hs run, chainBound, rxChain_rest moves.symm (rxExit_of_ne_disabled ne _) rfl]
  simp [State.moveRx, State.setRx, State.setPhyUp, hs.2.1]

theorem rxDispatch_phyUp (hs : s.rxIn .phyDown) :
    rxDispatch .phyUp s = .ok { s with
      rx := { s.rx with currentState := RxState.unauthenticated.code, previousState := RxState.phyDown.code }
      phyUp := true } := by
  rw [rxDispatch_of_run hs rfl, chainBound, rxChain_rest (cur := .phyDown) (next := .unauthenticated) nofun rfl rfl]
  simp [State.moveRx, State.setRx, State.setPhyUp, State.updatePhyRx, hs.2.1]

end

/-- The local KSV is asked for once, or once more after a zero answer (44_rx_events.md R261). -/
theorem rxLocalKsv_of_listed {s : State} {ks l : List Wide} {k : Wide}
    (shape : (ks = [k] ∧ k ≠ 0#64) ∨ ks = [0#64, k]) (h : s.answers.localKsv = ks ++ l) :
    rxLocalKsv s = (k, s.asked (List.replicate ks.length .cipherGetLocalKsv) ks.length
      { s.answers with localKsv := l }) := by
  rcases shape with ⟨rfl, nonzero⟩ | rfl
  · rw [rxLocalKsv, State.cipherGetLocalKsv_of_listed h]
    exact if_neg nonzero
  · rw [rxLocalKsv, State.cipherGetLocalKsv_of_listed h]
    simp only [if_pos]
    rw [State.cipherGetLocalKsv_of_listed (v := k) (l := l), State.asked_asked]
    · rfl
    · rfl

/-- The enable sequence with its answers at hand (44_rx_events.md R261). -/
theorem rxExitDisabled_of_listed {s : State} {ks l : List Wide} {k : Wide} {w : Int} {ws : List Int}
    (shape : (ks = [k] ∧ k ≠ 0#64) ∨ ks = [0#64, k]) (ksv : s.answers.localKsv = ks ++ l)
    (writes : s.answers.writes = w :: ws) (within : w ≤ s.params.literals.ksvBytes) :
    rxExitDisabled s = .ok { s with
      callbacks := rxCallbacks
      answers := { s.answers with localKsv := l, writes := ws }
      draws := s.draws + ks.length + 1
      requests := s.requests ++
        [.cipherSetLinkStateCheck false, .cipherSetRiUpdate false, .cipherSetLinkFailCallback (.rx .check),
         .cipherSetRiUpdateCallback (.rx .updateRi), .cipherEnable] ++
        List.replicate ks.length .cipherGetLocalKsv ++
        [.portWrite s.params.portMap.bksv (leBytes s.params.literals.ksvBytes k),
          .portSetAuthCallback (.rx .authenticate),
         .portEnable] } := by
  rw [rxExitDisabled_eq, rxLocalKsv_of_listed (s := rxEnabling s) shape ksv,
    State.portWrite_within (k := w) (l := ws), ok_bind]
  · simp [rxEnabling, rxCallbacks, State.asked, State.issue, State.portSetAuthCallback, State.cipherSetLinkFailCallback,
      State.cipherSetRiUpdateCallback, State.setCallbacks]
  · exact writes
  · rwa [leBytes_length]

theorem rxDispatch_enable {s : State} {ks l : List Wide} {k : Wide} {w : Int} {ws : List Int} (hs : s.rxIn .disabled)
    (shape : (ks = [k] ∧ k ≠ 0#64) ∨ ks = [0#64, k]) (ksv : s.answers.localKsv = ks ++ l)
    (writes : s.answers.writes = w :: ws) (within : w ≤ s.params.literals.ksvBytes) :
    rxDispatch .enable s = .ok { s with
      rx := { s.rx with
        currentState := if s.phyUp then RxState.unauthenticated.code else RxState.phyDown.code
        previousState := RxState.disabled.code }
      callbacks := rxCallbacks
      answers := { s.answers with localKsv := l, writes := ws }
      draws := s.draws + ks.length + 1
      requests := s.requests ++
        [.cipherSetLinkStateCheck false, .cipherSetRiUpdate false, .cipherSetLinkFailCallback (.rx .check),
         .cipherSetRiUpdateCallback (.rx .updateRi), .cipherEnable] ++
        List.replicate ks.length .cipherGetLocalKsv ++
        [.portWrite s.params.portMap.bksv (leBytes s.params.literals.ksvBytes k),
          .portSetAuthCallback (.rx .authenticate),
         .portEnable] } := by
  have exit := rxExitDisabled_of_listed shape ksv writes within
  rw [rxDispatch_of_run hs rfl, chainBound]
  cases up : s.phyUp with
  | true =>
    rw [State.updatePhyRx, up, if_pos rfl, rxChain_rest (cur := .disabled) (next := .unauthenticated) nofun exit rfl]
    simp [State.moveRx, State.setRx, hs.2.1, up]
  | false =>
    rw [State.updatePhyRx, up, if_neg Bool.false_ne_true,
      rxChain_rest (cur := .disabled) (next := .phyDown) nofun exit rfl]
    simp [State.moveRx, State.setRx, hs.2.1, up]

/-- Settles O41. -/
theorem rxDisableEntersDisabled : Obligations.RxDisableEntersDisabled := by
  rintro s _ st hs ne rfl
  exact exec_rxRow_and_command (e := .disable) hs.1 exec_disable (rxDispatch_disable hs ne)

/-- Settles O42: with a zero first answer the KSV is asked for once more. -/
theorem rxEnableLeavesDisabled : Obligations.RxEnableLeavesDisabled := by
  rintro s _ a ks k w hs within shape listed rfl
  have dispatch := rxDispatch_enable (l := a.localKsv) (ws := a.writes) hs shape
    (by rw [listed]) (by rw [listed]) within
  rw [listed] at dispatch
  exact exec_rxRow_and_command (e := .enable) hs.1 exec_enable dispatch

/-- Settles O43. -/
theorem rxPhyEventsMoveQuietly : Obligations.RxPhyEventsMoveQuietly := by
  refine ⟨?_, ?_⟩
  · rintro s _ st hs ne moves rfl
    exact exec_rxRow_and_command (e := .phyDown) hs.1 exec_setphy_down (rxDispatch_phyDown hs ne moves)
  · rintro s _ hs rfl
    exact exec_rxRow_and_command (e := .phyUp) hs.1 exec_setphy_up (rxDispatch_phyUp hs)

/-! ## `DISABLE` again, and `RESET` (40_commands.md R123) -/

section
variable {s : State}

/-- In `DISABLED` a command that posts an ignored event changes nothing but the result. -/
theorem exec_of_ignored_tx {i : Instr} {e : TxEvent} {r : RxEvent} {st : TxState} (hs : s.txIn st) (calm : s.calm)
    (command : s.accepts → exec i s = ended (drain (s.postFor e r))) (ignored : txHandles s.params e st = false)
    (keeps : s.updatePhyTx e = s) : exec i s = .next (s.setResult .success) := by
  refine exec_of_drain (command calm.1) ?_
  rw [drain_calm_tx hs.1 calm, txDispatch_of_not_handled hs ignored, keeps]

theorem exec_of_ignored_rx {i : Instr} {e : RxEvent} {r : TxEvent} {st : RxState} (hs : s.rxIn st) (calm : s.calm)
    (command : s.accepts → exec i s = ended (drain (s.postFor r e))) (ignored : rxHandles s.params e st = false)
    (keeps : s.updatePhyRx e = s) : exec i s = .next (s.setResult .success) := by
  refine exec_of_drain (command calm.1) ?_
  rw [drain_calm_rx hs.1 calm, rxDispatch_of_not_handled hs ignored, keeps]

end

/-- Settles O38: `DISABLED` ignores `DISABLE` and `POLL`. -/
theorem disableTwiceThenPollClearsOnce : Obligations.DisableTwiceThenPollClearsOnce := by
  refine ⟨fun s st hs ne held calm => ?_, fun s st hs ne calm => ?_⟩
  · refine ⟨_, (exec_txRow_and_command (e := .disable) hs.1 exec_disable (txDispatch_disable hs ne held)).2 calm,
      ?_, ?_, rfl, rfl, rfl⟩
    · exact exec_of_ignored_tx (State.disabledTx_txIn hs.1 st) calm exec_disable rfl rfl
    · exact exec_of_ignored_tx (State.disabledTx_txIn hs.1 st) calm exec_poll rfl rfl
  · refine ⟨_, (exec_rxRow_and_command (e := .disable) hs.1 exec_disable (rxDispatch_disable hs ne)).2 calm,
      ?_, ?_, rfl, rfl⟩
    · exact exec_of_ignored_rx (State.disabledRx_rxIn hs.1 st) calm exec_disable rfl rfl
    · exact exec_of_ignored_rx (State.disabledRx_rxIn hs.1 st) calm exec_poll rfl rfl

/-! ### No part of a drain reads the last result -/

theorem State.callback_setResult (s : State) (r : Result) (o : Option Event) :
    (s.setResult r).callback o = (s.callback o).setResult r := by
  cases o <;> rfl

theorem State.expire_setResult (s : State) (r : Result) : (s.setResult r).expire = s.expire.setResult r := by
  rcases s.expire_posts_or_quiet with ⟨ha, d, armed⟩ | quiet
  · rw [State.expire_tx ha d armed, State.expire_tx (s := s.setResult r) ha d armed]
    rfl
  · rw [State.expire_quiet quiet, State.expire_quiet (s := s.setResult r) quiet]
    rfl

theorem State.foldInterrupts_setResult (now : List Interrupt) (s : State) (r : Result) :
    now.foldl State.takeInterrupt (s.setResult r) = (now.foldl State.takeInterrupt s).setResult r := by
  induction now generalizing s with
  | nil => rfl
  | cons i now ih =>
    have one : (s.setResult r).takeInterrupt i = (s.takeInterrupt i).setResult r := by
      cases i with
      | portReauth | cipherRiUpdate | cipherLinkFail => exact s.callback_setResult r _
      | timerExpiry => exact s.expire_setResult r
    rw [List.foldl_cons, List.foldl_cons, one, ih]

theorem State.arrive_setResult (s : State) (r : Result) : (s.setResult r).arrive = s.arrive.setResult r := by
  rw [State.arrive, State.arrive, State.setResult_arrivals]
  cases s.arrivals with
  | nil => rfl
  | cons now later => exact (s.setArrivals later).foldInterrupts_setResult now r

theorem txDispatch_setResult (e : TxEvent) (s : State) (r : Result) :
    txDispatch e (s.setResult r) = (txDispatch e s).map (·.setResult r) := by
  simp only [State.setResult_eq_also]
  exact also_txDispatch _ s e

theorem rxDispatch_setResult (e : RxEvent) (s : State) (r : Result) :
    rxDispatch e (s.setResult r) = (rxDispatch e s).map (·.setResult r) := by
  simp only [State.setResult_eq_also]
  exact also_rxDispatch _ s e

theorem txDrain_setResult (snap : Half) (l : List TxEvent) (s : State) (r : Result) :
    txDrain snap l (s.setResult r) = (txDrain snap l s).map (·.setResult r) := by
  induction l generalizing s with
  | nil => rfl
  | cons e l ih =>
    rw [txDrain, txDrain, State.arrive_setResult]
    exact ite_commutes (ih s) (bind_commutes (txDispatch_setResult e _ r) ih)

theorem rxDrain_setResult (snap : Half) (l : List RxEvent) (s : State) (r : Result) :
    rxDrain snap l (s.setResult r) = (rxDrain snap l s).map (·.setResult r) := by
  induction l generalizing s with
  | nil => rfl
  | cons e l ih =>
    rw [rxDrain, rxDrain, State.arrive_setResult]
    exact ite_commutes (ih s) (bind_commutes (rxDispatch_setResult e _ r) ih)

theorem drain_setResult (s : State) (r : Result) : drain (s.setResult r) = (drain s).map (·.setResult r) := by
  simp only [drain, State.arrive_setResult, dispatchSnapshot]
  refine ite_commutes (c := s.arrive.pendingEvents &&& reservedEventMask s.arrive.params.direction = 0#16) ?_ rfl
  cases d : s.arrive.params.direction with
  | tx =>
    simp only [State.setPending_params, State.setResult_params, d]
    exact txDrain_setResult s.arrive.pendingEvents txEventOrder (s.arrive.setPending 0#16) r
  | rx =>
    simp only [State.setPending_params, State.setResult_params, d]
    exact rxDrain_setResult s.arrive.pendingEvents rxEventOrder (s.arrive.setPending 0#16) r

/-- A command that drains answers the same whatever the last result was. -/
theorem exec_enable_setResult {s : State} (ha : s.accepts) (r : Result) :
    exec .enable (s.setResult r) = exec .enable s := by
  have posted : (s.setResult r).postFor .enable .enable = (s.postFor .enable .enable).setResult r := by
    rw [State.postFor, State.postFor, State.setResult_params]
    cases s.params.direction <;> rfl
  rw [exec_enable ha, exec_enable (s := s.setResult r) ha, posted, drain_setResult]
  cases drain (s.postFor .enable .enable) <;> rfl

theorem drain_accepts {s t : State} (ha : s.accepts) (h : drain s = .ok t) : t.accepts := by
  have kept := keptAll_of_params_ready (Q := fun p r => r = true ∧ Params.directionPresent p = true)
    fun _ _ q => ⟨rfl, q.2⟩
  exact kept.toKept.drain h ha

theorem exec_reset_eq (s : State) :
    exec .reset s = match exec .disable s with
      | .next t => exec .enable t
      | .fault f => .fault f
      | .refused r => .refused r := by
  by_cases ha : s.accepts
  · rw [exec_reset ha, exec_disable ha]
    cases first : drain (s.postFor .disable .disable) with
    | error f => rfl
    | ok t =>
      have accepts : (s.postFor .disable .disable).accepts := by
        obtain ⟨p, e⟩ := s.postFor_eq .disable .disable
        rw [e]
        exact ha
      have later : t.accepts := drain_accepts accepts first
      exact ((exec_enable_setResult later _).trans (exec_enable later)).symm
  · rw [exec_of_not_accepts (i := .reset) rfl nofun ha, exec_of_not_accepts (i := .disable) rfl nofun ha]
    exact (exec_of_not_accepts (s := s.setResult .failure) (i := .enable) rfl nofun ha).symm

/-- `RESET` goes on where `DISABLE` ended. -/
theorem exec_reset_of_disable {s t : State} (h : exec .disable s = .next (t.setResult .success)) (ha : t.accepts) :
    exec .reset s = exec .enable t := by
  rw [exec_reset_eq, h]
  exact exec_enable_setResult ha _

/-- Settles O12: the two halves are the two commands. -/
theorem resetIsDisableThenEnable : Obligations.ResetIsDisableThenEnable := by
  refine ⟨rfl, exec_reset_eq, fun s ha => exec_of_not_accepts rfl nofun ha, fun s hs calm => ?_,
    fun s st hs ne held calm up => ?_, fun s st a k w hs ne calm up nonzero within listed => ?_⟩
  · refine exec_reset_of_disable ?_ calm.1
    rcases hs with hs | hs
    · exact exec_of_ignored_tx hs calm exec_disable rfl rfl
    · exact exec_of_ignored_rx hs calm exec_disable rfl rfl
  · have disable := (exec_txRow_and_command (e := .disable) hs.1 exec_disable (txDispatch_disable hs ne held)).2 calm
    have calm' : (s.disabledTx st).calm := calm
    have enable := txDispatch_enable (State.disabledTx_txIn hs.1 st)
    rw [exec_reset_of_disable disable calm.1,
      (exec_txRow_and_command (e := .enable) (State.disabledTx_txIn hs.1 st).1 exec_enable enable).2 calm']
    simp [State.disabledTx, State.setResult, up]
  · have disable := (exec_rxRow_and_command (e := .disable) hs.1 exec_disable (rxDispatch_disable hs ne)).2 calm
    have calm' : (s.disabledRx st).calm := calm
    have ksv : (s.disabledRx st).answers.localKsv = [k] ++ a.localKsv := congrArg Answers.localKsv listed
    have writes : (s.disabledRx st).answers.writes = w :: a.writes := congrArg Answers.writes listed
    have enable := rxDispatch_enable (State.disabledRx_rxIn hs.1 st) (.inl ⟨rfl, nonzero⟩) ksv writes within
    rw [exec_reset_of_disable disable calm.1,
      (exec_rxRow_and_command (e := .enable) (State.disabledRx_rxIn hs.1 st).1 exec_enable enable).2 calm']
    simp [State.disabledRx, State.setResult, up, listed]

end Sys2Proof.Machine
end

section
/-! The statements of 44_rx_events.md and 45_linkcheck.md about a receiver's authentication and link checks. -/

namespace Sys2Proof.Machine

/-! ## `AUTHENTICATE` (44_rx_events.md R251, R262) -/

section
variable {s : State} {r : ReadAnswer} {b1 b2 : List Byte} {rep : Bool} {l : List ReadAnswer} {ls : List Bool}

theorem rxStartComputations_of_short_aksv (reads : s.answers.reads = r :: l)
    (short : r.count < s.params.literals.ksvBytes) :
    rxStartComputations s = .ok (.unauthenticated,
      s.afterReads [.portRead s.params.portMap.aksv s.params.literals.ksvBytes] l) := by
  rw [rxStartComputations, State.portRead_short reads short, ok_bind]

theorem rxStartComputations_of_short_an
    (reads : s.answers.reads = { count := s.params.literals.ksvBytes, bytes := b1 } :: r :: l)
    (length : b1.length = s.params.literals.ksvBytes) (short : r.count < s.params.literals.anBytes) :
    rxStartComputations s = .ok (.unauthenticated,
      s.afterReads [.portRead s.params.portMap.aksv s.params.literals.ksvBytes,
        .portRead s.params.portMap.an s.params.literals.anBytes] l) := by
  rw [rxStartComputations, State.portRead_whole reads rfl length, ok_bind]
  simp only
  rw [State.portRead_short (r := r) (l := l), ok_bind, State.afterReads_afterReads]
  · rfl
  · rfl
  · exact short

theorem rxStartComputations_of_whole
    (reads : s.answers.reads =
      { count := s.params.literals.ksvBytes, bytes := b1 } :: { count := s.params.literals.anBytes, bytes := b2 } :: l)
    (length1 : b1.length = s.params.literals.ksvBytes) (length2 : b2.length = s.params.literals.anBytes)
    (repeater : s.answers.repeater = rep :: ls) :
    rxStartComputations s = .ok (.computations, s.asked
      ([.portRead s.params.portMap.aksv s.params.literals.ksvBytes,
        .portRead s.params.portMap.an s.params.literals.anBytes,
        .cipherSetRemoteKsv (unLE 64 b1), .portIsRepeater] ++ computeRequests (unLE 64 b2) rep) 3
      { s.answers with reads := l, repeater := ls }) := by
  rw [rxStartComputations, State.portRead_whole reads rfl length1, ok_bind]
  simp only
  rw [State.portRead_whole (r := { count := s.params.literals.anBytes, bytes := b2 }) (l := l), ok_bind,
    State.afterReads_afterReads]
  · simp only [rxLoadCipher]
    rw [State.portIsRepeater_of_listed (b := rep) (l := ls)]
    · simp [State.afterReads, State.issue_eq_asked, computeRequests]
    · exact repeater
  · rfl
  · rfl
  · exact length2

end

/-- `AUTHENTICATE` starts the computations in the entry of `COMPUTATIONS`, or in place, and ends where they choose. -/
theorem rxDispatch_authenticate {s u : State} {st n : RxState} (hs : s.rxIn st)
    (takes : st ∈ [RxState.unauthenticated, .authenticated, .linkIntegrityFailed, .computations])
    (start : rxStartComputations s = .ok (n, u)) (keeps : u.rx = s.rx)
    (ends : n = .computations ∨ n = .unauthenticated) :
    rxDispatch .authenticate s = .ok (u.setRx { s.rx with
      currentState := n.code
      previousState := if n = .computations then (if st = .computations then s.rx.previousState else st.code)
        else RxState.computations.code }) := by
  by_cases inPlace : st = .computations
  · subst inPlace
    rw [rxDispatch_of_run (e := .authenticate) hs start, chainBound]
    rcases ends with rfl | rfl
    · have same : u.rx = { s.rx with currentState := RxState.computations.code } := by rw [keeps, ← hs.2.1]
      rw [rxChain_stay, if_pos rfl, if_pos rfl, ← same, State.setRx_self]
    · rw [rxChain_rest (cur := .computations) (next := .unauthenticated) nofun rfl rfl, if_neg nofun, State.moveRx,
        keeps,
        hs.2.1]
  · have run : rxRun .authenticate st s = .ok (.computations, s) := by
      cases st with
      | computations => exact absurd rfl inPlace
      | disabled | phyDown => simp at takes
      | unauthenticated | authenticated | linkIntegrityFailed => rfl
    have exits : rxExit st s = .ok s := rxExit_of_ne_disabled (by rintro rfl; simp at takes) s
    rw [rxDispatch_of_run hs run, chainBound, rxChain_enter (Ne.symm inPlace) exits start]
    rcases ends with rfl | rfl
    · rw [rxChain_stay, if_pos rfl, if_neg inPlace, State.moveRx, keeps, hs.2.1]
    · rw [rxChain_rest (cur := .computations) (next := .unauthenticated) nofun rfl rfl, if_neg nofun, State.moveRx,
        State.moveRx, keeps]
      rfl

/-- Settles O39. -/
theorem rxAuthenticateStartsComputations : Obligations.RxAuthenticateStartsComputations := by
  intro s t st a l hs takes shape
  refine exec_rxRow_and_command (e := .authenticate) hs.1 exec_auth ?_
  rcases shape with ⟨b1, b2, rep, length1, length2, listed, rfl⟩ | ⟨r, short, listed, rfl⟩ |
    ⟨b1, r, length, short, listed, rfl⟩
  · have start := rxStartComputations_of_whole (l := a.reads) (ls := a.repeater) (by rw [listed]) length1 length2
      (by rw [listed])
    rw [rxDispatch_authenticate hs takes start rfl (.inl rfl), listed]
    simp [State.asked, State.setRx, l]
  · have start := rxStartComputations_of_short_aksv (l := a.reads) (by rw [listed]) short
    rw [rxDispatch_authenticate hs takes start rfl (.inr rfl), State.afterReads, listed]
    simp [State.asked, State.setRx, l]
  · have start := rxStartComputations_of_short_an (l := a.reads) (by rw [listed]) length short
    rw [rxDispatch_authenticate hs takes start rfl (.inr rfl), State.afterReads, listed]
    simp [State.asked, State.setRx, l]

/-! ## `CHECK` (44_rx_events.md R252, 45_linkcheck.md R296 to R298) -/

/-- `CHECK` moves where the check of the link chooses, without arming again. -/
theorem rxDispatch_check {s u : State} {st n : RxState} (hs : s.rxIn st)
    (takes : st = .authenticated ∨ st = .linkIntegrityFailed) (check : checkLinkIntegrity s = .ok (n, u))
    (keeps : u.rx = s.rx) (ends : n = .authenticated ∨ n = .linkIntegrityFailed) :
    rxDispatch .check s = .ok (u.setRx (if st = n then s.rx else
      { s.rx with currentState := n.code, previousState := st.code })) := by
  have run : rxRun .check st s = .ok (n, u) := by
    rcases takes with rfl | rfl <;> exact check
  rw [rxDispatch_of_run hs run, chainBound]
  by_cases same : st = n
  · subst same
    rw [rxChain_stay, if_pos rfl, ← keeps, State.setRx_self]
  · have current : u.rx.currentState = st.code := by rw [keeps, hs.2.1]
    have enter : rxEnter n u = .ok (n, u) := by
      rcases ends with rfl | rfl
      · have failed : st = .linkIntegrityFailed := takes.resolve_left same
        rw [rxEnter, rxArmLinkCheck, current, failed, if_pos rfl]
      · rfl
    rw [rxChain_rest (Ne.symm same) (rxExit_of_ne_disabled (by rcases takes with rfl | rfl <;> nofun) u) enter,
      if_neg same, State.moveRx, keeps, hs.2.1]

section
variable {s : State} {l : List Bool}

theorem checkLinkIntegrity_of_up (h : s.answers.linkUp = true :: l) :
    checkLinkIntegrity s = .ok (.authenticated, s.asked [.cipherIsLinkUp] 1 { s.answers with linkUp := l }) := by
  rw [checkLinkIntegrity, State.cipherIsLinkUp_of_listed h]
  rfl

theorem checkLinkIntegrity_of_down_hdmi (p : s.params.protocol = .hdmi) (h : s.answers.linkUp = false :: l) :
    checkLinkIntegrity s =
      .ok (.linkIntegrityFailed, s.asked [.cipherIsLinkUp] 1 { s.answers with linkUp := l }) := by
  rw [checkLinkIntegrity, State.cipherIsLinkUp_of_listed h]
  simp [p]

theorem checkLinkIntegrity_of_down_dp {u : State} (p : s.params.protocol = .dp) (h : s.answers.linkUp = false :: l)
    (failure : setDpLinkFailure (s.asked [.cipherIsLinkUp] 1 { s.answers with linkUp := l }) = .ok u) :
    checkLinkIntegrity s = .ok (.linkIntegrityFailed, u) := by
  rw [checkLinkIntegrity, State.cipherIsLinkUp_of_listed h]
  simp [p, failure]

end

theorem setDpLinkFailure_of_short {s : State} {r : ReadAnswer} {l : List ReadAnswer} (h : s.answers.reads = r :: l)
    (short : r.count < 1) : setDpLinkFailure s = .ok (s.afterReads [.portRead s.params.portMap.bstatus 1] l) := by
  rw [setDpLinkFailure, State.portRead_short h short, ok_bind]

theorem setDpLinkFailure_of_read {s : State} {x : Byte} {l : List ReadAnswer} {w : Int} {ws : List Int}
    (reads : s.answers.reads = { count := 1, bytes := [x] } :: l) (writes : s.answers.writes = w :: ws)
    (within : w ≤ 1) :
    setDpLinkFailure s = .ok (s.asked [.portRead s.params.portMap.bstatus 1,
      .portWrite s.params.portMap.bstatus [x ||| dpLinkFailureBit]] 2 { s.answers with reads := l, writes := ws }) := by
  rw [setDpLinkFailure, State.portRead_whole reads rfl rfl, ok_bind]
  simp only
  rw [State.portWrite_within (k := w) (l := ws), ok_bind]
  · simp [State.afterReads]
  · exact writes
  · exact within

/-- Settles O40. -/
theorem rxCheckFollowsTheLink : Obligations.RxCheckFollowsTheLink := by
  intro s st a hs takes
  refine ⟨fun listed => ?_, fun listed p => ?_, fun x w within p listed => ?_, fun r short p listed => ?_⟩
  all_goals refine (exec_rxRow_iff (e := .check) hs.1).2 ?_
  · have check := checkLinkIntegrity_of_up (l := a.linkUp) (by rw [listed])
    rw [rxDispatch_check hs takes check rfl (.inl rfl), listed]
    rcases takes with rfl | rfl <;> simp [State.asked, State.setRx]
  · have check := checkLinkIntegrity_of_down_hdmi (l := a.linkUp) p (by rw [listed])
    rw [rxDispatch_check hs takes check rfl (.inr rfl), listed]
    rcases takes with rfl | rfl <;> simp [State.asked, State.setRx]
  · have failure := setDpLinkFailure_of_read (s := s.asked [.cipherIsLinkUp] 1 { s.answers with linkUp := a.linkUp })
      (x := x) (l := a.reads) (ws := a.writes) (congrArg Answers.reads listed) (congrArg Answers.writes listed) within
    have check := checkLinkIntegrity_of_down_dp p (congrArg Answers.linkUp listed) failure
    rw [rxDispatch_check hs takes check rfl (.inr rfl), listed]
    rcases takes with rfl | rfl <;> simp [State.asked, State.setRx, dpLinkFailureBit]
  · have failure := setDpLinkFailure_of_short (s := s.asked [.cipherIsLinkUp] 1 { s.answers with linkUp := a.linkUp })
      (l := a.reads) (congrArg Answers.reads listed) short
    have check := checkLinkIntegrity_of_down_dp p (congrArg Answers.linkUp listed) failure
    rw [rxDispatch_check hs takes check rfl (.inr rfl), listed]
    rcases takes with rfl | rfl <;> simp [State.afterReads, State.asked, State.setRx]

/-! ## `POLL` and `UPDATE_RI` (44_rx_events.md R257, R258) -/

section
variable {s : State} {v : Half} {vs : List Half} {w : Int} {ws : List Int} (writes : s.answers.writes = w :: ws)
  (within : w ≤ s.params.literals.riRoBytes)
include writes within

theorem publishRiRo_dp (p : s.params.protocol = .dp) (ro : s.answers.ro = v :: vs) :
    publishRiRo s = .ok (s.asked
      [.cipherGetRo, .portWrite s.params.portMap.ro (leBytes s.params.literals.riRoBytes v)] 2
      { s.answers with ro := vs, writes := ws }) := by
  simp only [publishRiRo, p]
  rw [State.cipherGetRo_of_listed ro, State.portWrite_within (k := w) (l := ws), ok_bind]
  · simp
  · exact writes
  · rwa [leBytes_length]

theorem publishRiRo_hdmi (p : s.params.protocol = .hdmi) (ri : s.answers.ri = v :: vs) :
    publishRiRo s = .ok (s.asked
      [.cipherGetRi, .portWrite s.params.portMap.ro (leBytes s.params.literals.riRoBytes v)] 2
      { s.answers with ri := vs, writes := ws }) := by
  simp only [publishRiRo, p]
  rw [State.cipherGetRi_of_listed ri, State.portWrite_within (k := w) (l := ws), ok_bind]
  · simp
  · exact writes
  · rwa [leBytes_length]

theorem updateRi_of_listed (ri : s.answers.ri = v :: vs) :
    updateRi s = .ok ((s.asked
      [.cipherGetRi, .portWrite s.params.portMap.ro (leBytes s.params.literals.riRoBytes v)] 2
      { s.answers with ri := vs, writes := ws }).setRx { s.rx with
        riUpdates := bump s.params.statWidth s.rx.riUpdates }) := by
  rw [updateRi, State.cipherGetRi_of_listed ri, State.portWrite_within (k := w) (l := ws), ok_bind]
  · simp
  · exact writes
  · rwa [leBytes_length]

end

/-- The requests that arm link checking for a protocol (45_linkcheck.md R297). -/
def rxArmRequest : Protocol → Request
  | .hdmi => .cipherSetRiUpdate true
  | .dp => .cipherSetLinkStateCheck true

theorem rxDispatch_poll_complete {s u : State} {l : List Bool} (hs : s.rxIn .computations)
    (h : s.answers.complete = true :: l)
    (published : publishRiRo (s.asked [.cipherIsRequestComplete] 1 { s.answers with complete := l }) = .ok u)
    (keeps : u.rx = s.rx) :
    rxDispatch .poll s = .ok ((u.issue (rxArmRequest u.params.protocol)).setRx { s.rx with
      currentState := RxState.authenticated.code, previousState := RxState.computations.code }) := by
  have run : rxRun .poll .computations s = .ok (.authenticated, u) := by
    rw [rxRun, rxRunPoll, State.cipherIsRequestComplete_of_listed h]
    simp [published]
  have arm : rxEnter .authenticated u = .ok (.authenticated, u.issue (rxArmRequest u.params.protocol)) := by
    have arriving : ¬ u.rx.currentState = RxState.linkIntegrityFailed.code := by rw [keeps, hs.2.1]; decide
    rw [rxEnter, rxArmLinkCheck, if_neg arriving]
    cases u.params.protocol <;> rfl
  rw [rxDispatch_of_run hs run, chainBound, rxChain_rest (cur := .computations) (next := .authenticated) nofun rfl arm,
    State.moveRx, State.issue_rx, keeps, hs.2.1]

theorem rxDispatch_poll_incomplete {s : State} {l : List Bool} (hs : s.rxIn .computations)
    (h : s.answers.complete = false :: l) :
    rxDispatch .poll s = .ok (s.asked [.cipherIsRequestComplete] 1 { s.answers with complete := l }) := by
  have run : rxRun .poll .computations s =
      .ok (.computations, s.asked [.cipherIsRequestComplete] 1 { s.answers with complete := l }) := by
    rw [rxRun, rxRunPoll, State.cipherIsRequestComplete_of_listed h]
    rfl
  rw [rxDispatch_of_run hs run, rxChain_stay]

/-- Settles O44. -/
theorem rxPollPublishesAndAuthenticates : Obligations.RxPollPublishesAndAuthenticates := by
  intro s t a l hs shape
  refine exec_rxRow_and_command (e := .poll) hs.1 exec_poll ?_
  rcases shape with ⟨listed, rfl⟩ | ⟨v, w, within, p, listed, rfl⟩ | ⟨v, w, within, p, listed, rfl⟩
  · rw [rxDispatch_poll_incomplete (l := a.complete) hs (by rw [listed]), listed]
    rfl
  · have published := publishRiRo_hdmi (vs := a.ri) (ws := a.writes)
      (s := s.asked [.cipherIsRequestComplete] 1 { s.answers with complete := a.complete })
      (congrArg Answers.writes listed) within p (congrArg Answers.ri listed)
    rw [rxDispatch_poll_complete hs (congrArg Answers.complete listed) published rfl, listed]
    simp [State.issue, State.asked, State.setRx, rxArmRequest, p, l]
  · have published := publishRiRo_dp (vs := a.ro) (ws := a.writes)
      (s := s.asked [.cipherIsRequestComplete] 1 { s.answers with complete := a.complete })
      (congrArg Answers.writes listed) within p (congrArg Answers.ro listed)
    rw [rxDispatch_poll_complete hs (congrArg Answers.complete listed) published rfl, listed]
    simp [State.issue, State.asked, State.setRx, rxArmRequest, p, l]

theorem rxDispatch_updateRi {s : State} {v : Half} {vs : List Half} {w : Int} {ws : List Int}
    (hs : s.rxIn .authenticated) (p : s.params.protocol = .hdmi) (within : w ≤ s.params.literals.riRoBytes)
    (ri : s.answers.ri = v :: vs) (writes : s.answers.writes = w :: ws) :
    rxDispatch .updateRi s = .ok ((s.asked
      [.cipherGetRi, .portWrite s.params.portMap.ro (leBytes s.params.literals.riRoBytes v)] 2
      { s.answers with ri := vs, writes := ws }).setRx { s.rx with
        riUpdates := bump s.params.statWidth s.rx.riUpdates }) := by
  have run : rxRun .updateRi .authenticated s = (updateRi s).map fun t => (.authenticated, t) := by
    simp [rxRun, rxRunUpdateRi, p]
  rw [updateRi_of_listed writes within ri] at run
  rw [rxDispatch_of_run hs run, rxChain_stay]

/-- Settles O45: `POLL` is dispatched before `UPDATE_RI`, and `AUTHENTICATED` ignores it. -/
theorem rxUpdateRiCountsOnce : Obligations.RxUpdateRiCountsOnce := by
  rintro s _ a v w l hs p within listed rfl
  have ri : s.answers.ri = v :: a.ri := by rw [listed]
  have writes : s.answers.writes = w :: a.writes := by rw [listed]
  refine ⟨(exec_rxRow_iff (e := .updateRi) hs.1).2 ?_, fun ha quiet pend => ?_⟩
  · rw [rxDispatch_updateRi hs p within ri writes, listed]
    rfl
  · have ignored : rxDispatch .poll (s.setPending 0#16) = .ok (s.setPending 0#16) :=
      rxDispatch_of_not_handled (st := .authenticated) hs rfl
    rw [exec_poll_of_two_rx (m := 0x0180#16) ha hs.1 quiet (by rw [pend]; rfl) rfl rfl ignored
      (rxDispatch_updateRi (s := s.setPending 0#16) hs p within ri writes), State.setPending_answers, listed]
    rfl

end Sys2Proof.Machine
end

section
/-! The statements of 42_tx_events.md and 43_tx_procedures.md about `AUTHENTICATE`: an exchange that goes through. -/

namespace Sys2Proof.Machine

/-! ## `ExchangeKsvs()` with every answer at hand (43_tx_procedures.md R211 to R213) -/

/-- A KSV that is not revoked: asked where the hook is there, else not (20_memory.md R70). -/
theorem State.isKsvRevoked_of_not_revoked {s : State} {l : List Bool} (k : Wide)
    (h : s.answers.revoked = if s.params.hooks.isKsvRevoked then false :: l else l) :
    s.isKsvRevoked k = (false, s.asked (if s.params.hooks.isKsvRevoked then [.isKsvRevoked k] else [])
      (if s.params.hooks.isKsvRevoked then 1 else 0) { s.answers with revoked := l }) := by
  cases hook : s.params.hooks.isKsvRevoked with
  | true =>
    rw [hook, if_pos rfl] at h
    exact State.isKsvRevoked_of_listed hook h k
  | false =>
    rw [hook, if_neg Bool.false_ne_true] at h
    rw [State.isKsvRevoked_of_no_hook hook, ← h]
    simp [State.asked]

/-- The requests of an exchange that goes through, between the read of `BKSV` and `StartComputations()`. -/
def exchangeAsks (p : Params) (bksv an k : Wide) (n : Nat) : List Request :=
  (if p.hooks.isKsvRevoked then [Request.isKsvRevoked bksv] else []) ++
  [Request.portIsRepeater, Request.cipherDoRequest .rng] ++ List.replicate (n + 1) Request.cipherIsRequestComplete ++
  [Request.cipherGetMi, Request.portWrite p.portMap.an (leBytes p.literals.anBytes an), Request.cipherGetLocalKsv,
   Request.portWrite p.portMap.aksv (leBytes p.literals.ksvBytes k), Request.cipherSetRemoteKsv bksv]

theorem exchangeRequests_eq (p : Params) (bksv an k : Wide) (rep : Bool) (n : Nat) :
    exchangeRequests p bksv an k rep n =
      Request.portRead p.portMap.bksv p.literals.ksvBytes :: exchangeAsks p bksv an k n ++ computeRequests an rep := by
  simp [exchangeRequests, exchangeAsks]

theorem sendAnAksv_of_whole {s : State} {bksv m : Wide} {ws : List Int} {l : List Wide}
    (writes : s.answers.writes = (s.params.literals.anBytes : Int) :: (s.params.literals.ksvBytes : Int) :: ws)
    (ksv : s.answers.localKsv = m :: l) :
    sendAnAksv bksv s = .ok (.computations, s.asked
      [.portWrite s.params.portMap.an (leBytes s.params.literals.anBytes s.tx.an), .cipherGetLocalKsv,
        .portWrite s.params.portMap.aksv (leBytes s.params.literals.ksvBytes m), .cipherSetRemoteKsv bksv] 3
      { s.answers with writes := ws, localKsv := l }) := by
  rw [sendAnAksv_of_whole_an writes ksv, State.portWrite_whole (k := s.params.literals.ksvBytes) (l := ws), ok_bind,
    if_pos rfl, State.issue_eq_asked, State.afterAnWrite]
  · simp
  · rfl
  · rw [leBytes_length]

/-- The part of an exchange that follows the read of `BKSV`. -/
theorem exchangeWith_of_listed {s : State} {bksv k m : Wide} {rep : Bool} {n : Nat} {a : Answers}
    (valid : isValidKsv s.params.literals bksv = true)
    (revoked : s.answers.revoked = if s.params.hooks.isKsvRevoked then false :: a.revoked else a.revoked)
    (repeater : s.answers.repeater = rep :: a.repeater)
    (complete : s.answers.complete = List.replicate n false ++ true :: a.complete) (mi : s.answers.mi = m :: a.mi)
    (writes : s.answers.writes =
      (s.params.literals.anBytes : Int) :: (s.params.literals.ksvBytes : Int) :: a.writes)
    (ksv : s.answers.localKsv = k :: a.localKsv) :
    exchangeWith bksv s = .ok (.computations,
      (s.asked (exchangeAsks s.params bksv (if m = 0#64 then s.params.literals.anFallback else m) k n)
        (6 + n + (if s.params.hooks.isKsvRevoked then 1 else 0))
        { s.answers with
          revoked := a.revoked, repeater := a.repeater, complete := a.complete, mi := a.mi, writes := a.writes
          localKsv := a.localKsv }).setTx { s.tx with
        an := if m = 0#64 then s.params.literals.anFallback else m, isRepeater := rep }) := by
  have drawn : (if s.params.hooks.isKsvRevoked then 1 else 0) + 1 + (n + 2) + 3 =
      6 + n + (if s.params.hooks.isKsvRevoked then 1 else 0) := by omega
  rw [exchangeWith_of_good valid (State.isKsvRevoked_of_not_revoked _ revoked),
    State.portIsRepeater_of_listed (b := rep) (l := a.repeater),
    generateAn_of_listed (n := n) (m := m) (cs := a.complete) (l := a.mi), ok_bind,
    sendAnAksv_of_whole (m := k) (ws := a.writes) (l := a.localKsv)]
  · simp [State.setIsRepeater, State.setAn, exchangeAsks, drawn]
  · exact writes
  · exact ksv
  · exact complete
  · exact mi
  · exact repeater

theorem exchangeKsvs_of_good {s : State} {b : List Byte} {k m : Wide} {rep : Bool} {n : Nat} {a : Answers}
    (length : b.length = s.params.literals.ksvBytes) (valid : isValidKsv s.params.literals (unLE 64 b) = true)
    (listed : s.answers = { exchangeAnswers s.params b k m rep n a with capable := a.capable }) :
    exchangeKsvs s = .ok (.computations,
      (s.asked (.portRead s.params.portMap.bksv s.params.literals.ksvBytes ::
          exchangeAsks s.params (unLE 64 b) (if m = 0#64 then s.params.literals.anFallback else m) k n)
        (7 + n + (if s.params.hooks.isKsvRevoked then 1 else 0)) a).setTx { s.tx with
          an := if m = 0#64 then s.params.literals.anFallback else m, isRepeater := rep }) := by
  have reads : s.answers.reads = { count := s.params.literals.ksvBytes, bytes := b } :: a.reads := by rw [listed]; rfl
  have drawn : 1 + (6 + n + (if s.params.hooks.isKsvRevoked then 1 else 0)) =
      7 + n + (if s.params.hooks.isKsvRevoked then 1 else 0) := by omega
  rw [exchangeKsvs_of_read (State.portRead_whole reads rfl length), State.afterReads, listed,
    exchangeWith_of_listed (k := k) (m := m) (rep := rep) (n := n) (a := a)]
  · simp [exchangeAnswers, drawn]
  · exact valid
  all_goals rfl

/-! ## From `DETERMINE_RX_CAPABLE` to `COMPUTATIONS` (42_tx_events.md R183 to R186) -/

theorem startComputations_eq (s : State) :
    startComputations s = s.asked (computeRequests s.tx.an s.tx.isRepeater) 0 s.answers := by
  simp [startComputations, State.issue_eq_asked, computeRequests]

section
variable {s : State} {bound : Nat} {b : List Byte} {k m : Wide} {rep : Bool} {n : Nat} {a : Answers}

theorem txChain_exchangeKsvs (length : b.length = s.params.literals.ksvBytes)
    (valid : isValidKsv s.params.literals (unLE 64 b) = true)
    (listed : s.answers = { exchangeAnswers s.params b k m rep n a with capable := a.capable }) :
    txChain (bound + 2) .determineRxCapable .exchangeKsvs s = .ok ((s.asked
      (exchangeRequests s.params (unLE 64 b) (if m = 0#64 then s.params.literals.anFallback else m) k rep n)
      (7 + n + (if s.params.hooks.isKsvRevoked then 1 else 0)) a).setTx { s.tx with
        currentState := TxState.computations.code, previousState := TxState.exchangeKsvs.code
        an := if m = 0#64 then s.params.literals.anFallback else m, isRepeater := rep }) := by
  have exchange := exchangeKsvs_of_good length valid listed
  rw [txChain_enter (cur := .determineRxCapable) (next := .exchangeKsvs) nofun exchange,
    txChain_rest (cur := .exchangeKsvs) (next := .computations) nofun rfl, startComputations_eq, exchangeRequests_eq]
  simp [State.moveTx, txExit]

/-- Three entry actions lead a good receiver to `COMPUTATIONS`. -/
theorem txChain_determineRxCapable {cur : TxState} (ne : cur ≠ .disabled) (ne' : cur ≠ .determineRxCapable)
    (length : b.length = s.params.literals.ksvBytes) (valid : isValidKsv s.params.literals (unLE 64 b) = true)
    (listed : s.answers = exchangeAnswers s.params b k m rep n a) :
    txChain (bound + 3) cur .determineRxCapable s = .ok (((s.asked
      (txExitRequests s.params cur ++ disarmRequests ++ [.portIsCapable] ++ exchangeRequests s.params (unLE 64 b)
        (if m = 0#64 then s.params.literals.anFallback else m) k rep n)
      (exchangeDraws s.params n) a).setTx { s.tx with
        currentState := TxState.computations.code, previousState := TxState.exchangeKsvs.code
        an := if m = 0#64 then s.params.literals.anFallback else m, isRepeater := rep }).setTimer
      (txExitTimer s.params cur s.timer)) := by
  have capable : (txExit cur s).answers.capable = true :: a.capable := by
    rw [txExit_of_ne_disabled ne]
    exact congrArg Answers.capable listed
  have determine : txEnter .determineRxCapable (txExit cur s) = .ok (.exchangeKsvs, _) :=
    congrArg Except.ok (determineRxCapable_of_listed capable)
  have drawn : 1 + (7 + n + (if s.params.hooks.isKsvRevoked then 1 else 0)) = exchangeDraws s.params n := by
    rw [exchangeDraws]; omega
  rw [txChain_enter ne'.symm determine, txExit_of_ne_disabled ne,
    txChain_exchangeKsvs (b := b) (k := k) (m := m) (rep := rep) (n := n) (a := a)]
  · simp [State.moveTx, drawn]
  · exact length
  · exact valid
  · simp [State.moveTx, listed]

end

theorem txDispatch_authenticate {s : State} {st : TxState} {b : List Byte} {k m : Wide} {rep : Bool} {n : Nat}
    {a : Answers} (hs : s.txIn st)
    (takes : st ∈ [TxState.unauthenticated, .computations, .validateRx, .waitForReady, .authenticated])
    (length : b.length = s.params.literals.ksvBytes) (valid : isValidKsv s.params.literals (unLE 64 b) = true)
    (listed : s.answers = exchangeAnswers s.params b k m rep n a) :
    txDispatch .authenticate s = .ok (((s.asked
      (txExitRequests s.params st ++ disarmRequests ++ [.portIsCapable] ++ exchangeRequests s.params (unLE 64 b)
        (if m = 0#64 then s.params.literals.anFallback else m) k rep n)
      (exchangeDraws s.params n) a).setTx { s.tx with
        currentState := TxState.computations.code, previousState := TxState.exchangeKsvs.code
        an := if m = 0#64 then s.params.literals.anFallback else m, isRepeater := rep }).setTimer
      (txExitTimer s.params st s.timer)) := by
  have run : txRun .authenticate st s = .ok (.determineRxCapable, s) := by
    cases st with
    | unauthenticated | computations | validateRx | waitForReady | authenticated => rfl
    | disabled | determineRxCapable | exchangeKsvs | linkIntegrityCheck | testForRepeater | readKsvList | phyDown =>
      simp at takes
  rw [txDispatch_of_run hs run, chainBound]
  exact txChain_determineRxCapable (by rintro rfl; simp at takes) (by rintro rfl; simp at takes) length valid listed

/-- Settles O25. -/
theorem txAuthenticateStartsComputations : Obligations.TxAuthenticateStartsComputations := by
  rintro s _ st b k m rep n a l hs takes length valid listed an rfl
  refine exec_txRow_and_command (e := .authenticate) hs.1 exec_auth
    ((txDispatch_authenticate hs takes length valid listed).trans ?_)
  simp [State.asked, State.setTx, State.setTimer, an, l]

end Sys2Proof.Machine
end

section
/-! The statements of 45_linkcheck.md and 42_tx_events.md about tries: `CHECK` and `TIMEOUT` of a Tx. -/

namespace Sys2Proof.Machine

/-! ## Failed reads counted (43_tx_procedures.md R223) -/

/-- `s` after `k` failed reads are counted. -/
def State.countReads (s : State) (k : Nat) : State :=
  s.setTx { s.tx with
    stats := { s.tx.stats with readFailures := (bump s.params.statWidth)^[k] s.tx.stats.readFailures } }

@[simp] theorem State.countReads_params (s : State) (k : Nat) : (s.countReads k).params = s.params := rfl
@[simp] theorem State.countReads_answers (s : State) (k : Nat) : (s.countReads k).answers = s.answers := rfl

@[simp] theorem State.countReads_zero (s : State) : s.countReads 0 = s := rfl

theorem State.readFailure_eq_countReads (s : State) : s.readFailure = s.countReads 1 := rfl

@[simp] theorem State.countReads_countReads (s : State) (j k : Nat) :
    (s.countReads j).countReads k = s.countReads (k + j) := by
  simp [State.countReads, Function.iterate_add_apply]

@[simp] theorem State.countReads_asked (s : State) (k : Nat) (rs : List Request) (n : Nat) (a : Answers) :
    (s.countReads k).asked rs n a = (s.asked rs n a).countReads k := rfl

/-- What a read counts when it makes a try fail: one where it is short. -/
def shortRead (n : Nat) (r : ReadAnswer) : Nat := if r.count < (n : Int) then 1 else 0

theorem shortReads_cons (n : Nat) (r : ReadAnswer) (l : List ReadAnswer) :
    shortReads n (r :: l) = shortReads n l + shortRead n r := by
  unfold shortReads shortRead
  by_cases h : r.count < (n : Int)
  · simp [h]
  · simp [h]

/-! ## The tries of `LinkIntegrityCheck()` (45_linkcheck.md R292) -/

/-- What one try asks. -/
def riTryRequests (p : Params) : List Request :=
  [.cipherGetRi, .portRead p.portMap.ro p.literals.riRoBytes]

section
variable {s : State} {r : ReadAnswer} {v : Half} {vs : List Half} {l : List ReadAnswer}

theorem riTries_succ_of_fails (ri : s.answers.ri = v :: vs) (reads : s.answers.reads = r :: l)
    (fails : tryFails s.params.literals.riRoBytes r v) (k : Nat) :
    riTries (k + 1) s = riTries k
      ((s.asked (riTryRequests s.params) 2 { s.answers with ri := vs, reads := l }).countReads
        (shortRead s.params.literals.riRoBytes r)) := by
  rw [riTries, State.cipherGetRi_of_listed ri]
  rcases fails with short | ⟨count, length, differs⟩
  · simp only
    rw [State.portRead_short (r := r) (l := l), ok_bind, shortRead, if_pos short]
    · simp [State.afterReads, State.readFailure_eq_countReads, riTryRequests]
    · exact reads
    · exact short
  · simp only
    rw [State.portRead_whole (r := r) (l := l), ok_bind, shortRead, if_neg (by rw [count]; omega)]
    · simp [State.afterReads, riTryRequests, differs]
    · exact reads
    · exact count
    · exact length

theorem riTries_succ_of_match (ri : s.answers.ri = v :: vs) (reads : s.answers.reads = r :: l)
    (agrees : tryMatches s.params.literals.riRoBytes r v) (k : Nat) :
    riTries (k + 1) s = .ok (true,
      s.asked (riTryRequests s.params) 2 { s.answers with ri := vs, reads := l }) := by
  obtain ⟨count, length, equal⟩ := agrees
  rw [riTries, State.cipherGetRi_of_listed ri]
  simp only
  rw [State.portRead_whole (r := r) (l := l), ok_bind]
  · simp [State.afterReads, riTryRequests, equal]
  · exact reads
  · exact count
  · exact length

end

theorem riTries_of_fails {s : State} {fs : List (Half × ReadAnswer)} {vs : List Half} {l : List ReadAnswer}
    (fails : ∀ f ∈ fs, tryFails s.params.literals.riRoBytes f.2 f.1) (ri : s.answers.ri = fs.map Prod.fst ++ vs)
    (reads : s.answers.reads = fs.map Prod.snd ++ l) (k : Nat) :
    riTries (fs.length + k) s = riTries k
      ((s.asked (List.replicate fs.length (riTryRequests s.params)).flatten (2 * fs.length)
        { s.answers with ri := vs, reads := l }).countReads
          (shortReads s.params.literals.riRoBytes (fs.map Prod.snd))) := by
  induction fs generalizing s with
  | nil =>
    rw [List.map_nil, List.nil_append] at ri reads
    simp [State.asked, shortReads, ← ri, ← reads]
  | cons f fs ih =>
    rw [List.map_cons, List.cons_append] at ri reads
    have first := fails f List.mem_cons_self
    have later : ∀ g ∈ fs, tryFails s.params.literals.riRoBytes g.2 g.1 :=
      fun g hg => fails g (List.mem_cons_of_mem _ hg)
    rw [List.length_cons, Nat.add_right_comm, riTries_succ_of_fails ri reads first, ih]
    · simp [shortReads_cons, List.replicate_succ, Nat.mul_succ, Nat.add_comm 2]
    · exact later
    · rfl
    · rfl

/-! ## The tries of `ValidateRx()` (45_linkcheck.md R291) -/

/-- What one try asks. -/
def roTryRequest (p : Params) : Request := .portRead p.portMap.ro p.literals.riRoBytes

section
variable {s : State} {r : ReadAnswer} {v : Half} {l : List ReadAnswer}

theorem roTries_succ_of_fails (reads : s.answers.reads = r :: l)
    (fails : tryFails s.params.literals.riRoBytes r v) (k : Nat) :
    roTries v (k + 1) s = roTries v k
      ((s.afterReads [roTryRequest s.params] l).countReads (shortRead s.params.literals.riRoBytes r)) := by
  rw [roTries]
  rcases fails with short | ⟨count, length, differs⟩
  · rw [State.portRead_short reads short, ok_bind, shortRead, if_pos short]
    rfl
  · rw [State.portRead_whole reads count length, ok_bind, shortRead, if_neg (by rw [count]; omega)]
    exact if_neg differs

theorem roTries_succ_of_match (reads : s.answers.reads = r :: l)
    (agrees : tryMatches s.params.literals.riRoBytes r v) (k : Nat) :
    roTries v (k + 1) s = .ok (true, s.afterReads [roTryRequest s.params] l) := by
  obtain ⟨count, length, equal⟩ := agrees
  rw [roTries, State.portRead_whole reads count length, ok_bind]
  exact if_pos equal

end

theorem roTries_of_fails {s : State} {v : Half} {fs l : List ReadAnswer}
    (fails : ∀ f ∈ fs, tryFails s.params.literals.riRoBytes f v) (reads : s.answers.reads = fs ++ l) (k : Nat) :
    roTries v (fs.length + k) s = roTries v k
      ((s.afterReads (List.replicate fs.length (roTryRequest s.params)) l).countReads
        (shortReads s.params.literals.riRoBytes fs)) := by
  induction fs generalizing s with
  | nil =>
    rw [List.nil_append] at reads
    simp [State.afterReads, State.asked, shortReads, ← reads]
  | cons f fs ih =>
    rw [List.cons_append] at reads
    have first := fails f List.mem_cons_self
    have later : ∀ g ∈ fs, tryFails s.params.literals.riRoBytes g v := fun g hg => fails g (List.mem_cons_of_mem _ hg)
    rw [List.length_cons, Nat.add_right_comm, roTries_succ_of_fails reads first, ih]
    · simp [State.afterReads, shortReads_cons, List.replicate_succ, Nat.add_comm 1]
    · exact later
    · rfl

/-! ## The outcomes of the comparisons -/

section
variable {s : State} {r : ReadAnswer} {v : Half} {l : List ReadAnswer}

theorem linkIntegrityCheck_of_match {fs : List (Half × ReadAnswer)} {vs : List Half}
    (few : fs.length < s.params.literals.nRetry) (fails : ∀ f ∈ fs, tryFails s.params.literals.riRoBytes f.2 f.1)
    (agrees : tryMatches s.params.literals.riRoBytes r v) (ri : s.answers.ri = fs.map Prod.fst ++ v :: vs)
    (reads : s.answers.reads = fs.map Prod.snd ++ r :: l) :
    linkIntegrityCheck s = .ok (.authenticated, State.countLinkCheckPassed
      ((s.asked (List.replicate (fs.length + 1) (riTryRequests s.params)).flatten (2 * (fs.length + 1))
        { s.answers with ri := vs, reads := l }).countReads
          (shortReads s.params.literals.riRoBytes (fs.map Prod.snd)))) := by
  obtain ⟨k, total⟩ := Nat.exists_eq_add_of_lt few
  rw [linkIntegrityCheck, total, Nat.add_assoc, riTries_of_fails fails ri reads,
    riTries_succ_of_match (r := r) (v := v) (vs := vs) (l := l), ok_bind]
  · simp [List.replicate_succ', Nat.mul_succ]
  · rfl
  · rfl
  · exact agrees

theorem linkIntegrityCheck_of_exhaustion {fs : List (Half × ReadAnswer)} {vs : List Half}
    (all : fs.length = s.params.literals.nRetry) (fails : ∀ f ∈ fs, tryFails s.params.literals.riRoBytes f.2 f.1)
    (ri : s.answers.ri = fs.map Prod.fst ++ vs) (reads : s.answers.reads = fs.map Prod.snd ++ l) :
    linkIntegrityCheck s = .ok (.determineRxCapable, State.countLinkCheckFailed
      ((s.asked (List.replicate fs.length (riTryRequests s.params)).flatten (2 * fs.length)
        { s.answers with ri := vs, reads := l }).countReads
          (shortReads s.params.literals.riRoBytes (fs.map Prod.snd)))) := by
  rw [linkIntegrityCheck, ← all]
  have tries := riTries_of_fails fails ri reads 0
  rw [Nat.add_zero] at tries
  rw [tries]
  rfl

theorem validateRx_of_match {fs : List ReadAnswer} {vs : List Half}
    (few : fs.length < s.params.literals.nRetry) (fails : ∀ f ∈ fs, tryFails s.params.literals.riRoBytes f v)
    (agrees : tryMatches s.params.literals.riRoBytes r v) (ro : s.answers.ro = v :: vs)
    (reads : s.answers.reads = fs ++ r :: l) :
    validateRx s = .ok (.testForRepeater,
      (s.asked (.cipherGetRo :: List.replicate (fs.length + 1) (roTryRequest s.params)) (1 + fs.length + 1)
        { s.answers with ro := vs, reads := l }).countReads (shortReads s.params.literals.riRoBytes fs)) := by
  obtain ⟨k, total⟩ := Nat.exists_eq_add_of_lt few
  rw [validateRx, State.cipherGetRo_of_listed ro]
  simp only
  rw [total, Nat.add_assoc, roTries_of_fails (l := r :: l),
    roTries_succ_of_match (r := r) (v := v) (l := l), ok_bind]
  · simp [State.afterReads, List.replicate_succ']
  · rfl
  · exact agrees
  · exact fails
  · exact reads

theorem validateRx_of_exhaustion {fs : List ReadAnswer} {vs : List Half}
    (all : fs.length = s.params.literals.nRetry) (fails : ∀ f ∈ fs, tryFails s.params.literals.riRoBytes f v)
    (ro : s.answers.ro = v :: vs) (reads : s.answers.reads = fs ++ l) :
    validateRx s = .ok (.unauthenticated, State.countAuthFailed
      ((s.asked (.cipherGetRo :: List.replicate fs.length (roTryRequest s.params)) (1 + fs.length)
        { s.answers with ro := vs, reads := l }).countReads (shortReads s.params.literals.riRoBytes fs))) := by
  rw [validateRx, State.cipherGetRo_of_listed ro, ← all]
  simp only
  rw [← Nat.add_zero fs.length, roTries_of_fails (l := l)]
  · simp [State.afterReads, roTries]
  · exact fails
  · exact reads

end

/-! ## The entry of `AUTHENTICATED` (43_tx_procedures.md R220, R221) -/

/-- `s` after `ApplyEncryption()` with delays that return. -/
def State.settled (s : State) : State :=
  s.asked (settleRequests s.params s.tx.encryptionMap) (settleCount s.params s.tx.encryptionMap)
    { s.answers with delays := s.answers.delays.drop (settleCount s.params s.tx.encryptionMap) }

theorem applyEncryption_eq_settled {s : State} (h : s.delaysReturn) : applyEncryption s = .ok s.settled :=
  applyEncryption_of_delaysReturn h

section
variable {s : State} (returns : s.delaysReturn)
include returns

theorem enterAuthenticated_again (arriving : s.tx.currentState = TxState.linkIntegrityCheck.code) :
    enterAuthenticated s = .ok (s.settled.setAn 0#64) := by
  rw [enterAuthenticated, if_pos arriving, applyEncryption_eq_settled returns]
  rfl

theorem enterAuthenticated_anew (arriving : s.tx.currentState ≠ TxState.linkIntegrityCheck.code) :
    enterAuthenticated s =
      .ok ((s.countAuthPassed.asked (armRequests true) 0 s.answers).settled.setAn 0#64) := by
  rw [enterAuthenticated, if_neg arriving, State.setCheckLinkState_eq, applyEncryption_eq_settled]
  · rfl
  · exact returns

theorem txChain_authenticated_again {bound : Nat} (arriving : s.tx.currentState = TxState.linkIntegrityCheck.code) :
    txChain (bound + 1) .linkIntegrityCheck .authenticated s = .ok ((s.settled.setAn 0#64).moveTx .authenticated) := by
  have enter := enterAuthenticated_again returns arriving
  exact txChain_rest (cur := .linkIntegrityCheck) (next := .authenticated) nofun
    (by rw [txEnter, txExit, enter, map_ok])

/-- The entry of `AUTHENTICATED` that ends an attempt. -/
theorem txChain_authenticated_anew {bound : Nat} {cur : TxState} (arriving : s.tx.currentState = cur.code)
    (anew : cur ≠ .linkIntegrityCheck ∧ cur ≠ .authenticated ∧ cur ≠ .disabled) :
    txChain (bound + 1) cur .authenticated s = .ok (State.moveTx (State.setAn (State.settled
      (State.asked (State.countAuthPassed ((s.asked (txExitRequests s.params cur) 0 s.answers).setTimer
        (txExitTimer s.params cur s.timer))) (armRequests true) 0 s.answers)) 0#64) .authenticated) := by
  have enter := enterAuthenticated_anew
    (s := (s.asked (txExitRequests s.params cur) 0 s.answers).setTimer (txExitTimer s.params cur s.timer)) returns
    (by rw [State.setTimer_tx, State.asked_tx, arriving]; exact fun same => anew.1 (TxState.code_inj same))
  exact txChain_rest anew.2.1.symm (by rw [txEnter, txExit_of_ne_disabled anew.2.2, enter, map_ok]; rfl)

end

end Sys2Proof.Machine
end

section
/-! The statements of 42_tx_events.md about `CHECK` in `AUTHENTICATED`. -/

namespace Sys2Proof.Machine

/-- `CHECK` enters `LINK_INTEGRITY_CHECK`; what the check chooses comes next. -/
theorem txDispatch_check_of_run {s u : State} {n : TxState} (hs : s.txIn .authenticated)
    (check : linkIntegrityCheck s = .ok (n, u)) :
    txDispatch .check s = txChain 3 .linkIntegrityCheck n (u.moveTx .linkIntegrityCheck) := by
  rw [txDispatch_of_run hs rfl]
  exact txChain_enter (cur := .authenticated) (next := .linkIntegrityCheck) nofun check

theorem txDispatch_check_match {s : State} {fs : List (Half × ReadAnswer)} {v : Half} {r : ReadAnswer} {a : Answers}
    (hs : s.txIn .authenticated) (few : fs.length < s.params.literals.nRetry)
    (fails : ∀ f ∈ fs, tryFails s.params.literals.riRoBytes f.2 f.1)
    (agrees : tryMatches s.params.literals.riRoBytes r v)
    (listed : s.answers = { a with ri := fs.map Prod.fst ++ v :: a.ri, reads := fs.map Prod.snd ++ r :: a.reads })
    (returns : s.delaysReturn) :
    txDispatch .check s = .ok { s with
      tx := { s.tx with
        previousState := TxState.linkIntegrityCheck.code, an := 0#64
        stats := { s.tx.stats with
          linkCheckPassed := (s.tx.stats.linkCheckPassed + 1) % 2 ^ s.params.statWidth
          readFailures := (bump s.params.statWidth)^[shortReads s.params.literals.riRoBytes (fs.map Prod.snd)]
            s.tx.stats.readFailures } }
      answers := { a with delays := a.delays.drop (settleCount s.params s.tx.encryptionMap) }
      draws := s.draws + 2 * (fs.length + 1) + settleCount s.params s.tx.encryptionMap
      requests := s.requests ++ (List.replicate (fs.length + 1) (riTryRequests s.params)).flatten ++
        settleRequests s.params s.tx.encryptionMap } := by
  have check := linkIntegrityCheck_of_match (l := a.reads) (vs := a.ri) few fails agrees
    (by rw [listed]) (by rw [listed])
  rw [txDispatch_check_of_run hs check, txChain_authenticated_again (by exact returns) rfl]
  simp [State.settled, State.moveTx, State.setAn, State.countReads, State.countLinkCheckPassed, State.setTx,
    State.asked,
    bump, hs.2.1, listed]

/-- Settles O26: `POLL` is dispatched after `CHECK`, and `AUTHENTICATED` ignores it. -/
theorem txCheckMatchKeepsAuthenticated : Obligations.TxCheckMatchKeepsAuthenticated := by
  rintro s _ fs v r a l hs few fails agrees listed returns rfl
  refine ⟨(exec_txRow_iff (e := .check) hs.1).2 (txDispatch_check_match hs few fails agrees listed returns),
    fun ha quiet pend => ?_⟩
  exact exec_poll_of_two_tx (m := 0x0104#16) (a := .check) ha hs.1 quiet (by rw [pend]; rfl) rfl rfl
    (txDispatch_check_match (s := s.setPending 0#16) hs few fails agrees listed returns)
    (txDispatch_of_not_handled (st := .authenticated) ⟨hs.1, hs.2.1, rfl⟩ rfl)

/-! ## All tries failed (42_tx_events.md R172, 41_event_queue.md R158) -/

/-- A receiver no longer capable: the attempt ends in `UNAUTHENTICATED`. -/
theorem txChain_incapable {s : State} {bound : Nat} {cur : TxState} {l : List Bool} (ne : cur ≠ .disabled)
    (ne' : cur ≠ .determineRxCapable) (capable : s.answers.capable = false :: l) :
    txChain (bound + 2) cur .determineRxCapable s = .ok (((s.asked
      (txExitRequests s.params cur ++ disarmRequests ++ [.portIsCapable] ++ disarmRequests) 1
      { s.answers with capable := l }).setTx { s.tx with
        currentState := TxState.unauthenticated.code, previousState := TxState.determineRxCapable.code
        an := 0#64 }).setTimer (txExitTimer s.params cur s.timer)) := by
  have capable' : (txExit cur s).answers.capable = false :: l := by
    rw [txExit_of_ne_disabled ne]
    exact capable
  have determine : txEnter .determineRxCapable (txExit cur s) = .ok (.unauthenticated, _) :=
    congrArg Except.ok (determineRxCapable_of_listed capable')
  rw [txChain_enter ne'.symm determine, txExit_of_ne_disabled ne,
    txChain_rest (cur := .determineRxCapable) (next := .unauthenticated) nofun rfl,
    txEnterUnauthenticated_eq]
  simp [State.moveTx, State.setAn, txExit]

section
variable {s : State} {fs : List (Half × ReadAnswer)} {a a' : Answers}
  (hs : s.txIn .authenticated) (all : fs.length = s.params.literals.nRetry)
  (fails : ∀ f ∈ fs, tryFails s.params.literals.riRoBytes f.2 f.1)
  (listed : s.answers = { a' with ri := fs.map Prod.fst ++ a'.ri, reads := fs.map Prod.snd ++ a'.reads })
include hs all fails listed

/-- What `CHECK` with all tries failed leaves to the new attempt. -/
theorem txDispatch_check_exhausted :
    txDispatch .check s = txChain 3 .linkIntegrityCheck .determineRxCapable ((s.asked
      (List.replicate s.params.literals.nRetry (riTryRequests s.params)).flatten
      (2 * s.params.literals.nRetry) a').setTx
      { s.tx with
        currentState := TxState.linkIntegrityCheck.code, previousState := TxState.authenticated.code
        stats := { s.tx.stats with
          linkCheckFailed := (s.tx.stats.linkCheckFailed + 1) % 2 ^ s.params.statWidth
          readFailures := (bump s.params.statWidth)^[shortReads s.params.literals.riRoBytes (fs.map Prod.snd)]
            s.tx.stats.readFailures } }) := by
  have check := linkIntegrityCheck_of_exhaustion (l := a'.reads) (vs := a'.ri) all fails
    (by rw [listed]) (by rw [listed])
  rw [txDispatch_check_of_run hs check, all, listed]
  simp [State.moveTx, State.countReads, State.countLinkCheckFailed, bump, hs.2.1]

theorem txDispatch_check_incapable (h : a' = { a with capable := false :: a.capable }) :
    txDispatch .check s = .ok { s with
      tx := { s.tx with
        currentState := TxState.unauthenticated.code, previousState := TxState.determineRxCapable.code, an := 0#64
        stats := { s.tx.stats with
          linkCheckFailed := (s.tx.stats.linkCheckFailed + 1) % 2 ^ s.params.statWidth
          readFailures := (bump s.params.statWidth)^[shortReads s.params.literals.riRoBytes (fs.map Prod.snd)]
            s.tx.stats.readFailures } }
      answers := a
      draws := s.draws + 2 * s.params.literals.nRetry + 1
      requests := s.requests ++
        (List.replicate s.params.literals.nRetry (riTryRequests s.params)).flatten ++ disarmRequests ++
        [.portIsCapable] ++ disarmRequests } := by
  rw [txDispatch_check_exhausted hs all fails listed,
    txChain_incapable (cur := .linkIntegrityCheck) (l := a.capable) nofun nofun]
  · simp [State.asked, State.setTx, State.setTimer, txExitRequests, txExitTimer, TxState.timed, h]
  · exact congrArg Answers.capable h

theorem txDispatch_check_exchanged {b : List Byte} {k m : Wide} {rep : Bool} {n : Nat}
    (length : b.length = s.params.literals.ksvBytes) (valid : isValidKsv s.params.literals (unLE 64 b) = true)
    (h : a' = exchangeAnswers s.params b k m rep n a) :
    txDispatch .check s = .ok { s with
      tx := { s.tx with
        currentState := TxState.computations.code, previousState := TxState.exchangeKsvs.code
        an := if m = 0#64 then s.params.literals.anFallback else m, isRepeater := rep
        stats := { s.tx.stats with
          linkCheckFailed := (s.tx.stats.linkCheckFailed + 1) % 2 ^ s.params.statWidth
          readFailures := (bump s.params.statWidth)^[shortReads s.params.literals.riRoBytes (fs.map Prod.snd)]
            s.tx.stats.readFailures } }
      answers := a
      draws := s.draws + 2 * s.params.literals.nRetry + exchangeDraws s.params n
      requests := s.requests ++
        (List.replicate s.params.literals.nRetry (riTryRequests s.params)).flatten ++ disarmRequests ++
        [.portIsCapable] ++ exchangeRequests s.params (unLE 64 b)
          (if m = 0#64 then s.params.literals.anFallback else m) k rep n } := by
  rw [txDispatch_check_exhausted hs all fails listed,
    txChain_determineRxCapable (bound := 0) (cur := .linkIntegrityCheck) (b := b) (k := k) (m := m) (rep := rep)
      (n := n)
      (a := a) nofun nofun]
  · simp [State.asked, State.setTx, State.setTimer, txExitRequests, txExitTimer, TxState.timed, Nat.add_assoc]
  · exact length
  · exact valid
  · exact h

end

/-- Settles O27: `POLL` is dispatched after `CHECK`; `UNAUTHENTICATED` ignores it and `COMPUTATIONS` does not. -/
theorem txCheckMismatchReauthenticates : Obligations.TxCheckMismatchReauthenticates := by
  intro s fs a a' l hs all fails listed stats asked
  refine ⟨?_, ?_⟩
  · rintro _ h rfl
    refine ⟨(exec_txRow_iff (e := .check) hs.1).2 (txDispatch_check_incapable hs all fails listed h),
      fun ha quiet pend => ?_⟩
    exact exec_poll_of_two_tx (m := 0x0104#16) (a := .check) ha hs.1 quiet (by rw [pend]; rfl) rfl rfl
      (txDispatch_check_incapable (s := s.setPending 0#16) hs all fails listed h)
      (txDispatch_of_not_handled (st := .unauthenticated) ⟨hs.1, rfl, rfl⟩ rfl)
  · rintro _ b k m rep n length valid h an rfl
    refine ⟨(exec_txRow_iff (e := .check) hs.1).2 (txDispatch_check_exchanged hs all fails listed length valid h),
      fun u ha quiet pend poll => ?_⟩
    refine exec_poll_of_two_tx (m := 0x0104#16) (a := .check) ha hs.1 quiet (by rw [pend]; rfl) rfl rfl
      (txDispatch_check_exchanged (s := s.setPending 0#16) hs all fails listed length valid h) ?_
    refine (exec_txRow_iff (e := .poll) ?_).1 poll
    exact hs.1

end Sys2Proof.Machine
end

section
/-! The statements of 42_tx_events.md about `TIMEOUT`, and `POLL` in `WAIT_FOR_READY`. -/

namespace Sys2Proof.Machine

/-! ## `TIMEOUT` in `VALIDATE_RX` (42_tx_events.md R179, R187 to R190) -/

/-- The end of an attempt in `UNAUTHENTICATED`. -/
theorem txChain_unauthenticated {s : State} {bound : Nat} {cur : TxState} (ne : cur ≠ .disabled)
    (ne' : cur ≠ .unauthenticated) :
    txChain (bound + 1) cur .unauthenticated s = .ok (((s.asked (txExitRequests s.params cur ++ disarmRequests) 0
      s.answers).setTx { s.tx with
        currentState := TxState.unauthenticated.code, previousState := s.tx.currentState, an := 0#64 }).setTimer
          (txExitTimer s.params cur s.timer)) := by
  rw [txChain_rest ne'.symm rfl, txExit_of_ne_disabled ne, txEnterUnauthenticated_eq]
  simp [State.moveTx, State.setAn]

theorem txDispatch_timeout_exhausted {s : State} {v : Half} {fs : List ReadAnswer} {a : Answers}
    (hs : s.txIn .validateRx) (all : fs.length = s.params.literals.nRetry)
    (fails : ∀ f ∈ fs, tryFails s.params.literals.riRoBytes f v)
    (listed : s.answers = { a with ro := v :: a.ro, reads := fs ++ a.reads }) :
    txDispatch .timeout s = .ok { s with
      tx := { s.tx with
        currentState := TxState.unauthenticated.code, previousState := TxState.validateRx.code, an := 0#64
        stats := { s.tx.stats with
          authFailed := (s.tx.stats.authFailed + 1) % 2 ^ s.params.statWidth
          readFailures := (bump s.params.statWidth)^[shortReads s.params.literals.riRoBytes fs]
            s.tx.stats.readFailures } }
      timer := stoppedTimer s.params s.timer
      answers := a
      draws := s.draws + 1 + s.params.literals.nRetry
      requests := s.requests ++ [.cipherGetRo] ++ List.replicate s.params.literals.nRetry (roTryRequest s.params) ++
        stopRequests s.params ++ disarmRequests } := by
  have validate := validateRx_of_exhaustion (l := a.reads) (vs := a.ro) all fails (by rw [listed]) (by rw [listed])
  rw [txDispatch_of_run (e := .timeout) hs validate, chainBound,
    txChain_unauthenticated (cur := .validateRx) nofun nofun]
  simp [State.countReads, State.countAuthFailed, State.setTx, State.setTimer, State.asked, bump, hs.2.1, listed, all,
    txExitRequests, txExitTimer, TxState.timed, Nat.add_assoc]

/-- Settles O35: `POLL` is dispatched before `TIMEOUT`, and `VALIDATE_RX` ignores it. -/
theorem txTimeoutExhaustionEndsUnauthenticated : Obligations.TxTimeoutExhaustionEndsUnauthenticated := by
  rintro s _ v fs a l hs all fails listed rfl
  refine ⟨(exec_txRow_iff (e := .timeout) hs.1).2 (txDispatch_timeout_exhausted hs all fails listed),
    fun ha quiet pend => ?_⟩
  exact exec_poll_of_two_tx (m := 0x0300#16) (a := .poll) ha hs.1 quiet (by rw [pend]; rfl) rfl rfl
    (txDispatch_of_not_handled (s := s.setPending 0#16) (st := .validateRx) hs rfl)
    (txDispatch_timeout_exhausted (s := s.setPending 0#16) hs all fails listed)

section
variable {s : State}

theorem testForRepeater_single (single : s.tx.isRepeater = false) : testForRepeater s = .ok (.authenticated, s) := by
  rw [testForRepeater, single, if_neg Bool.false_ne_true]

/-- A repeater has `AINFO` cleared; a short write is counted and ignored (43_tx_procedures.md R216). -/
theorem testForRepeater_repeater {w : Int} {ws : List Int} (repeats : s.tx.isRepeater = true)
    (writes : s.answers.writes = w :: ws) (within : w ≤ 1) (returns : s.delaysReturn) :
    testForRepeater s = .ok (.waitForReady, State.settled
      ((s.asked [.portWrite s.params.portMap.ainfo [ainfoClear]] 1 { s.answers with writes := ws }).countReads
        (if w = 1 then 0 else 1))) := by
  rw [testForRepeater, repeats, if_pos rfl, State.portWrite_within (b := [ainfoClear]) writes within, ok_bind]
  by_cases whole : w = 1
  · simp only [List.length_singleton, Nat.cast_one, whole, decide_true, if_true, State.countReads_zero]
    rw [applyEncryption_eq_settled (by exact returns)]
    rfl
  · simp only [List.length_singleton, Nat.cast_one, whole, decide_false, if_false, Bool.false_eq_true,
      State.readFailure_eq_countReads]
    rw [applyEncryption_eq_settled (by exact returns)]
    rfl

variable {bound : Nat}

/-- Without a repeater `TEST_FOR_REPEATER` leads to `AUTHENTICATED`. -/
theorem txChain_testForRepeater_single (returns : s.delaysReturn) (single : s.tx.isRepeater = false) :
    txChain (bound + 2) .validateRx .testForRepeater s = .ok (((s.asked
      (stopRequests s.params ++ armRequests true ++ settleRequests s.params s.tx.encryptionMap)
      (settleCount s.params s.tx.encryptionMap)
      { s.answers with delays := s.answers.delays.drop (settleCount s.params s.tx.encryptionMap) }).setTx { s.tx with
        currentState := TxState.authenticated.code, previousState := TxState.testForRepeater.code, an := 0#64
        stats := { s.tx.stats with
          authPassed := (s.tx.stats.authPassed + 1) % 2 ^ s.params.statWidth } }).setTimer
      (stoppedTimer s.params s.timer)) := by
  have test : txEnter .testForRepeater (txExit .validateRx s) = .ok (.authenticated, _) :=
    testForRepeater_single (s := s.stopTimer) (by rw [State.stopTimer_eq_asked]; exact single)
  rw [txChain_enter (cur := .validateRx) (next := .testForRepeater) nofun test, State.stopTimer_eq_asked,
    txChain_authenticated_anew (cur := .testForRepeater) (by exact returns) rfl ⟨nofun, nofun, nofun⟩]
  simp [State.settled, State.moveTx, State.setAn, State.countAuthPassed, bump, txExitRequests, txExitTimer,
    TxState.timed]

/-- With a repeater `TEST_FOR_REPEATER` leads to `WAIT_FOR_READY`. -/
theorem txChain_testForRepeater_repeater {w : Int} {ws : List Int} (returns : s.delaysReturn)
    (repeats : s.tx.isRepeater = true) (writes : s.answers.writes = w :: ws) (within : w ≤ 1) :
    txChain (bound + 2) .validateRx .testForRepeater s = .ok (((s.asked
      (stopRequests s.params ++ [.portWrite s.params.portMap.ainfo [ainfoClear]] ++
        settleRequests s.params s.tx.encryptionMap ++ startRequests s.params s.params.literals.tWaitReady)
      (1 + settleCount s.params s.tx.encryptionMap)
      { s.answers with
        writes := ws, delays := s.answers.delays.drop (settleCount s.params s.tx.encryptionMap) }).setTx { s.tx with
          currentState := TxState.waitForReady.code, previousState := TxState.testForRepeater.code
          stats := { s.tx.stats with
            readFailures := (bump s.params.statWidth)^[if w = 1 then 0 else 1] s.tx.stats.readFailures } }).setTimer
      (startedTimer s.params s.params.literals.tWaitReady (stoppedTimer s.params s.timer))) := by
  have test : txEnter .testForRepeater (txExit .validateRx s) = .ok (.waitForReady, _) :=
    testForRepeater_repeater (s := s.stopTimer) (w := w) (ws := ws) (by rw [State.stopTimer_eq_asked]; exact repeats)
      (by rw [State.stopTimer_eq_asked]; exact writes) within (by rw [State.stopTimer_eq_asked]; exact returns)
  rw [txChain_enter (cur := .validateRx) (next := .testForRepeater) nofun test, State.stopTimer_eq_asked,
    txChain_rest (cur := .testForRepeater) (next := .waitForReady) nofun rfl, State.startTimer_eq_asked]
  simp [State.settled, State.moveTx, State.countReads, txExit]

end

section
variable {s : State} {v : Half} {fs : List ReadAnswer} {r : ReadAnswer} {a : Answers} (hs : s.txIn .validateRx)
  (few : fs.length < s.params.literals.nRetry) (fails : ∀ f ∈ fs, tryFails s.params.literals.riRoBytes f v)
  (agrees : tryMatches s.params.literals.riRoBytes r v) (returns : s.delaysReturn)
include hs few fails agrees returns

theorem txDispatch_timeout_single (single : s.tx.isRepeater = false)
    (listed : s.answers = { a with ro := v :: a.ro, reads := fs ++ r :: a.reads }) :
    txDispatch .timeout s = .ok { s with
      tx := { s.tx with
        currentState := TxState.authenticated.code, previousState := TxState.testForRepeater.code, an := 0#64
        stats := { s.tx.stats with
          authPassed := (s.tx.stats.authPassed + 1) % 2 ^ s.params.statWidth
          readFailures := (bump s.params.statWidth)^[shortReads s.params.literals.riRoBytes fs]
            s.tx.stats.readFailures } }
      timer := stoppedTimer s.params s.timer
      answers := { a with delays := a.delays.drop (settleCount s.params s.tx.encryptionMap) }
      draws := s.draws + 2 + fs.length + settleCount s.params s.tx.encryptionMap
      requests := s.requests ++ [.cipherGetRo] ++
        List.replicate (fs.length + 1) (roTryRequest s.params) ++ stopRequests s.params ++
        armRequests true ++ settleRequests s.params s.tx.encryptionMap } := by
  have validate := validateRx_of_match (l := a.reads) (vs := a.ro) few fails agrees (by rw [listed]) (by rw [listed])
  have drawn : s.draws + (1 + fs.length + 1) = s.draws + 2 + fs.length := by omega
  rw [txDispatch_of_run (e := .timeout) hs validate, chainBound,
    txChain_testForRepeater_single (by exact returns) (by exact single)]
  simp [State.countReads, State.setTx, State.setTimer, State.asked, listed, drawn]

theorem txDispatch_timeout_repeater {w : Int} (repeats : s.tx.isRepeater = true) (within : w ≤ 1)
    (listed : s.answers = { a with ro := v :: a.ro, reads := fs ++ r :: a.reads, writes := w :: a.writes }) :
    txDispatch .timeout s = .ok { s with
      tx := { s.tx with
        currentState := TxState.waitForReady.code, previousState := TxState.testForRepeater.code
        stats := { s.tx.stats with
          readFailures := (bump s.params.statWidth)^[shortReads s.params.literals.riRoBytes fs +
            if w = 1 then 0 else 1] s.tx.stats.readFailures } }
      timer := startedTimer s.params s.params.literals.tWaitReady (stoppedTimer s.params s.timer)
      answers := { a with delays := a.delays.drop (settleCount s.params s.tx.encryptionMap) }
      draws := s.draws + 3 + fs.length + settleCount s.params s.tx.encryptionMap
      requests := s.requests ++ [.cipherGetRo] ++
        List.replicate (fs.length + 1) (roTryRequest s.params) ++ stopRequests s.params ++
        [.portWrite s.params.portMap.ainfo [ainfoClear]] ++ settleRequests s.params s.tx.encryptionMap ++
        startRequests s.params s.params.literals.tWaitReady } := by
  have validate := validateRx_of_match (l := a.reads) (vs := a.ro) few fails agrees (by rw [listed]) (by rw [listed])
  have drawn : s.draws + (1 + fs.length + 1) + (1 + settleCount s.params s.tx.encryptionMap) =
      s.draws + 3 + fs.length + settleCount s.params s.tx.encryptionMap := by omega
  rw [txDispatch_of_run (e := .timeout) hs validate, chainBound,
    txChain_testForRepeater_repeater (w := w) (ws := a.writes)]
  · simp [State.countReads, State.setTx, State.setTimer, State.asked, listed, drawn, Nat.add_comm (shortReads _ _),
      ← Function.iterate_add_apply]
  · exact returns
  · exact repeats
  · exact congrArg Answers.writes listed
  · exact within

end

/-- Settles O34. -/
theorem txTimeoutMatchGoesOn : Obligations.TxTimeoutMatchGoesOn := by
  intro s fs v r a l hs few fails agrees returns
  have ignored : txDispatch .poll (s.setPending 0#16) = .ok (s.setPending 0#16) :=
    txDispatch_of_not_handled (st := .validateRx) hs rfl
  refine ⟨?_, ?_⟩
  · rintro _ single listed rfl
    refine ⟨(exec_txRow_iff (e := .timeout) hs.1).2
      (txDispatch_timeout_single hs few fails agrees returns single listed), fun ha quiet pend => ?_⟩
    exact exec_poll_of_two_tx (m := 0x0300#16) ha hs.1 quiet (by rw [pend]; rfl) rfl rfl ignored
      (txDispatch_timeout_single (s := s.setPending 0#16) hs few fails agrees returns single listed)
  · rintro _ w repeats within listed rfl
    refine ⟨(exec_txRow_iff (e := .timeout) hs.1).2
      (txDispatch_timeout_repeater hs few fails agrees returns repeats within listed), fun ha quiet pend => ?_⟩
    exact exec_poll_of_two_tx (m := 0x0300#16) ha hs.1 quiet (by rw [pend]; rfl) rfl rfl ignored
      (txDispatch_timeout_repeater (s := s.setPending 0#16) hs few fails agrees returns repeats within listed)

end Sys2Proof.Machine
end

section
/-! The statement of 42_tx_events.md about `WAIT_FOR_READY`: `TIMEOUT`, and `POLL` where it asks for the list. -/

namespace Sys2Proof.Machine

/-! ## The dispatch of an event that starts `ReadinessCheck()` (42_tx_events.md R177, R179) -/

section
variable {s : State} {e : TxEvent} {a : Answers} (hs : s.txIn .waitForReady)
  (starts : e = .timeout ∨ (e = .poll ∧ s.params.wfrPollOnPoll = true))
include hs starts

theorem txDispatch_waitForReady {n : TxState} {u : State} (check : readinessCheck (decide (e = .timeout)) s = (n, u)) :
    txDispatch e s = txChain chainBound .waitForReady n u := by
  rcases starts with rfl | ⟨rfl, asksOnPoll⟩
  · exact txDispatch_of_run (e := .timeout) hs (congrArg Except.ok check)
  · exact txDispatch_of_run (e := .poll) hs (congrArg Except.ok ((if_pos asksOnPoll).trans check))

theorem txDispatch_waitForReady_of_none (listed : s.answers = { a with repeaterInfo := none :: a.repeaterInfo }) :
    txDispatch e s = txChain chainBound .waitForReady (if e = .timeout then .unauthenticated else .waitForReady)
      (s.asked [.portGetRepeaterInfo] 1 a) := by
  rw [txDispatch_waitForReady hs starts
    (readinessCheck_of_none (State.portGetRepeaterInfo_of_listed listed) _)]
  simp only [decide_eq_true_eq]
  rfl

theorem txDispatch_waitForReady_of_some {i : Half}
    (listed : s.answers = { a with repeaterInfo := some i :: a.repeaterInfo }) :
    txDispatch e s = txChain chainBound .waitForReady
      (if repeaterOverflow i then .unauthenticated else if deviceCount i = 0 then .authenticated else .readKsvList)
      ((s.asked [.portGetRepeaterInfo] 1 a).setTx { s.tx with repeaterInfo := i }) :=
  txDispatch_waitForReady hs starts (readinessCheck_of_some (State.portGetRepeaterInfo_of_listed listed) _)

end

/-! ## `READ_KSV_LIST` (43_tx_procedures.md R218) -/

section
variable {s u v : State} {n bound : Nat}

/-- What attempts at the list keep of the state that enters them. -/
theorem State.asksCountingReads_keeps (h : s.stopTimer.asksCountingReads u) :
    u.params = s.params ∧ u.tx.encryptionMap = s.tx.encryptionMap ∧
      u.tx.stats.authPassed = s.tx.stats.authPassed ∧ u.tx.stats.authFailed = s.tx.stats.authFailed := by
  rw [State.stopTimer_eq_asked] at h
  obtain ⟨_, c, ⟨a, d, rs, rfl⟩, rfl⟩ := h
  exact ⟨rfl, rfl, rfl, rfl⟩

/-- An attempt that succeeds leads to `AUTHENTICATED`. -/
theorem txChain_readKsvList_of_success (few : n < s.params.literals.nRetry) (failed : attemptsFail n s.stopTimer u)
    (success : ksvListAttempt u = .ok (true, v)) (returns : v.delaysReturn) :
    txChain (bound + 2) .waitForReady .readKsvList s = .ok { v with
      tx := { v.tx with
        currentState := TxState.authenticated.code, previousState := TxState.readKsvList.code, an := 0#64
        stats := { v.tx.stats with authPassed := (s.tx.stats.authPassed + 1) % 2 ^ s.params.statWidth } }
      answers := { v.answers with delays := v.answers.delays.drop (settleCount s.params s.tx.encryptionMap) }
      draws := v.draws + settleCount s.params s.tx.encryptionMap
      requests := v.requests ++ armRequests true ++ settleRequests s.params s.tx.encryptionMap } := by
  obtain ⟨params, map, passed, -⟩ := State.asksCountingReads_keeps
    (State.asksCountingReads_trans (attemptsFail_asksCountingReads failed) (ksvListAttempt_asksCountingReads success))
  obtain ⟨m, next⟩ := ksvListAttempts_next (total := s.params.literals.nRetry) few failed
  have enter : txEnter .readKsvList (txExit .waitForReady s) = .ok (.authenticated, v) :=
    validateKsvList_of_success (s := s.stopTimer) (by
      rw [State.stopTimer_eq_asked] at next ⊢
      exact next.trans (ksvListAttempts_succ_of_success success m))
  rw [txChain_enter (cur := .waitForReady) (next := .readKsvList) nofun enter,
    txChain_authenticated_anew (cur := .readKsvList) (by exact returns) rfl ⟨nofun, nofun, nofun⟩]
  simp [State.settled, State.moveTx, State.setAn, State.countAuthPassed, State.setTx, State.setTimer, State.asked, bump,
    txExitRequests, txExitTimer, TxState.timed, params, map, passed]

/-- Attempts that all fail lead to `UNAUTHENTICATED`, and count one failure. -/
theorem txChain_readKsvList_of_exhaustion (failed : attemptsFail s.params.literals.nRetry s.stopTimer u) :
    txChain (bound + 2) .waitForReady .readKsvList s = .ok { u with
      tx := { u.tx with
        currentState := TxState.unauthenticated.code, previousState := TxState.readKsvList.code, an := 0#64
        stats := { u.tx.stats with authFailed := (s.tx.stats.authFailed + 1) % 2 ^ s.params.statWidth } }
      requests := u.requests ++ disarmRequests } := by
  obtain ⟨params, -, -, failures⟩ := State.asksCountingReads_keeps (attemptsFail_asksCountingReads failed)
  have exhausted : ksvListAttempts s.params.literals.nRetry s.stopTimer = .ok (false, u) :=
    ksvListAttempts_of_attemptsFail failed 0
  have enter : txEnter .readKsvList (txExit .waitForReady s) = .ok (.unauthenticated, u.countAuthFailed) :=
    validateKsvList_of_exhaustion (s := s.stopTimer) (by
      rw [State.stopTimer_eq_asked] at exhausted ⊢
      exact exhausted)
  rw [txChain_enter (cur := .waitForReady) (next := .readKsvList) nofun enter,
    txChain_unauthenticated (cur := .readKsvList) nofun nofun]
  simp [State.moveTx, State.countAuthFailed, State.setTx, State.setTimer, State.asked, bump, txExitRequests,
    txExitTimer,
    TxState.timed, params, failures]

end

theorem not_repeaterOverflow {i : Half} (devices : i.getLsbD 7 = false) (cascade : i.getLsbD 11 = false) :
    ¬ repeaterOverflow i = true := by
  rw [repeaterOverflow_iff, devices, cascade]
  exact fun h => h.elim nofun nofun

/-- Settles O36: the answer to `GetRepeaterInfo()` chooses the state, and the attempts at the list decide the rest. -/
theorem txWaitForReadyOutcomes : Obligations.TxWaitForReadyOutcomes := by
  intro s e a info hs starts listed
  refine ⟨?_, ?_, ?_, ?_, ?_⟩
  · rintro rfl rfl
    refine (exec_txRow_iff hs.1).2 ?_
    rw [txDispatch_waitForReady_of_none hs starts listed, if_neg nofun, txChain_stay]
    rfl
  · rintro rfl rfl
    refine (exec_txRow_iff hs.1).2 ?_
    rw [txDispatch_waitForReady_of_none hs starts listed, if_pos rfl, chainBound,
      txChain_unauthenticated (cur := .waitForReady) nofun nofun]
    simp [State.setTx, State.setTimer, State.asked, hs.2.1, txExitRequests, txExitTimer, TxState.timed]
  · rintro i rfl overflow
    refine (exec_txRow_iff hs.1).2 ?_
    rw [txDispatch_waitForReady_of_some hs starts listed, if_pos ((repeaterOverflow_iff i).2 overflow), chainBound,
      txChain_unauthenticated (cur := .waitForReady) nofun nofun]
    simp [State.setTx, State.setTimer, State.asked, hs.2.1, txExitRequests, txExitTimer, TxState.timed]
  · rintro i rfl devices cascade count returns
    have sound := not_repeaterOverflow devices cascade
    refine (exec_txRow_iff hs.1).2 ?_
    rw [txDispatch_waitForReady_of_some hs starts listed, if_neg sound, if_pos ((deviceCount_eq_zero_iff i).2 count),
      chainBound, txChain_authenticated_anew (cur := .waitForReady)
        (s := (s.asked [.portGetRepeaterInfo] 1 a).setTx { s.tx with repeaterInfo := i }) ?_ hs.2.1
        ⟨nofun, nofun, nofun⟩]
    · simp [State.settled, State.moveTx, State.setAn, State.countAuthPassed, State.setTx, State.setTimer, State.asked,
        bump, hs.2.1, txExitRequests, txExitTimer, TxState.timed]
    · rw [State.delaysReturn, listed] at returns
      exact returns
  · rintro i rfl devices cascade count entered
    have sound := not_repeaterOverflow devices cascade
    have counted : ¬ deviceCount i = 0 := fun zero => count ((deviceCount_eq_zero_iff i).1 zero)
    have dispatch := txDispatch_waitForReady_of_some hs starts listed
    rw [if_neg sound, if_neg counted, chainBound] at dispatch
    have enters : entered = State.stopTimer
        ((s.asked [.portGetRepeaterInfo] 1 a).setTx { s.tx with repeaterInfo := i }) := by
      rw [State.stopTimer_eq_asked]
      rfl
    refine ⟨fun n u v few failed success returns => ?_, fun u failed => ?_⟩
    · rw [enters] at failed
      exact (exec_txRow_iff hs.1).2 (dispatch.trans (txChain_readKsvList_of_success few failed success returns))
    · rw [enters] at failed
      exact (exec_txRow_iff hs.1).2 (dispatch.trans (txChain_readKsvList_of_exhaustion failed))

end Sys2Proof.Machine
end
